-- ==== Sys2Proof/Word.lean ====
section
/-! DEFINITION. The word types of the device and their plainest arithmetic (spec 00, R7). -/

namespace Sys2Proof

/-- A byte of any store (R7). -/
abbrev Byte := BitVec 8

/-- A 64-bit word: scalar registers (R37), registers (R33), packet words (R350). -/
abbrev Word := BitVec 64

/-- A 32-bit word: loop counters (R37), FP32 patterns, Philox words (R162). -/
abbrev W32 := BitVec 32

/-- A 16-bit word: semaphore counts (R188). -/
abbrev W16 := BitVec 16

end Sys2Proof
end

