-- ==== Sys2Proof/Syntax.lean ====
section
/-! DEFINITION. The commands of the block: one constructor for each row of spec/opcode_table.json, in the table's order.
A row of the core instruction set is the issue of a bundle that holds that one slot instruction on core `lcn`; a row of the
command set is that command's take-up from a ring; every other row is an event at the device's edge or inside it. -/

namespace Sys2Proof

/-- The header of a firmware command and the ring it is taken up from (R350): release time, fence and deadline. -/
structure Hdr where
  ring : Nat
  tag : Nat
  job : Nat
  rt : Option Nat
  fence : Bool
  dl : Option Nat
  deriving DecidableEq, Repr

/-- Parameters of JOB_LOAD (R363). -/
structure JobLoad where
  program : Nat
  seed : Nat
  argument : Nat
  gx : Nat
  gy : Nat
  priority : Nat
  flags : Nat
  jobTag : Nat
  leads : Nat
  ox : Nat
  oy : Nat
  oz : Nat
  ex : Nat
  ey : Nat
  ez : Nat
  leadCells : List Nat
  deriving DecidableEq, Repr

/-- Parameters of OBJ_MAP (R362). -/
structure ObjMap where
  first : Nat
  count : Nat
  layout : Nat
  fmt : Nat
  block : Nat
  group : Nat
  flags : Nat
  rows : Nat
  cols : Nat
  deriving DecidableEq, Repr

/-- Parameters of SNAPSHOT, RESTORE and ADOPT (R362). -/
structure SnapSrc where
  id : Nat
  dests : Nat
  bx : Nat
  bY : Nat
  bz : Nat
  ns : Nat
  lba : Nat
  ctrl : Nat
  deriving DecidableEq, Repr

/-- A DDR5 module that passed training (R232): channel, capacity in GiB, ranks, speed code of MEM_BASE_CFG. -/
structure Module where
  ch : Nat
  gib : Nat
  ranks : Nat
  rate : Nat
  deriving DecidableEq, Repr

/-- What a boot finds at the device's edge (R233, R456): the strap, the flash, the modules and stacks that train, how many copies fail to verify
(R460), and the NVMe controllers that answer (R414). -/
structure BootEnv where
  strap : Bool
  flashOk : Bool
  modules : List Module
  hbms : Nat
  copyFails : Nat
  nvme : Nat
  deriving DecidableEq, Repr

/-- The commands of the block. -/
inductive Instr where
  /-- BUNDLE_ISSUE. The core issues the bundle at its program counter (R39). -/
  | bundleIssue (lcn : Nat)
  /-- NOP. A bundle of four no-ops issues (R101). -/
  | nop (lcn : Nat)
  /-- ADD. Scalar arithmetic on two registers (R111). -/
  | add (lcn : Nat) (sd : Fin 32) (sa : Fin 32) (sb : Fin 32)
  /-- SUB. Scalar arithmetic on two registers (R111). -/
  | sub (lcn : Nat) (sd : Fin 32) (sa : Fin 32) (sb : Fin 32)
  /-- AND. Scalar arithmetic on two registers (R111). -/
  | andOp (lcn : Nat) (sd : Fin 32) (sa : Fin 32) (sb : Fin 32)
  /-- OR. Scalar arithmetic on two registers (R111). -/
  | orOp (lcn : Nat) (sd : Fin 32) (sa : Fin 32) (sb : Fin 32)
  /-- XOR. Scalar arithmetic on two registers (R111). -/
  | xor (lcn : Nat) (sd : Fin 32) (sa : Fin 32) (sb : Fin 32)
  /-- SHL. Scalar arithmetic on two registers (R111). -/
  | shl (lcn : Nat) (sd : Fin 32) (sa : Fin 32) (sb : Fin 32)
  /-- SHR. Scalar arithmetic on two registers (R111). -/
  | shr (lcn : Nat) (sd : Fin 32) (sa : Fin 32) (sb : Fin 32)
  /-- SRA. Scalar arithmetic on two registers (R111). -/
  | sra (lcn : Nat) (sd : Fin 32) (sa : Fin 32) (sb : Fin 32)
  /-- MUL. Scalar arithmetic on two registers (R111). -/
  | mul (lcn : Nat) (sd : Fin 32) (sa : Fin 32) (sb : Fin 32)
  /-- MIN. Scalar arithmetic on two registers (R111). -/
  | min (lcn : Nat) (sd : Fin 32) (sa : Fin 32) (sb : Fin 32)
  /-- MAX. Scalar arithmetic on two registers (R111). -/
  | max (lcn : Nat) (sd : Fin 32) (sa : Fin 32) (sb : Fin 32)
  /-- ADDI. Scalar arithmetic with a sign-extended imm14 (R111). -/
  | addi (lcn : Nat) (sd : Fin 32) (sa : Fin 32) (imm : BitVec 14)
  /-- SUBI. Scalar arithmetic with a sign-extended imm14 (R111). -/
  | subi (lcn : Nat) (sd : Fin 32) (sa : Fin 32) (imm : BitVec 14)
  /-- ANDI. Scalar arithmetic with a sign-extended imm14 (R111). -/
  | andi (lcn : Nat) (sd : Fin 32) (sa : Fin 32) (imm : BitVec 14)
  /-- ORI. Scalar arithmetic with a sign-extended imm14 (R111). -/
  | ori (lcn : Nat) (sd : Fin 32) (sa : Fin 32) (imm : BitVec 14)
  /-- XORI. Scalar arithmetic with a sign-extended imm14 (R111). -/
  | xori (lcn : Nat) (sd : Fin 32) (sa : Fin 32) (imm : BitVec 14)
  /-- SHLI. Scalar arithmetic with a sign-extended imm14 (R111). -/
  | shli (lcn : Nat) (sd : Fin 32) (sa : Fin 32) (imm : BitVec 14)
  /-- SHRI. Scalar arithmetic with a sign-extended imm14 (R111). -/
  | shri (lcn : Nat) (sd : Fin 32) (sa : Fin 32) (imm : BitVec 14)
  /-- SRAI. Scalar arithmetic with a sign-extended imm14 (R111). -/
  | srai (lcn : Nat) (sd : Fin 32) (sa : Fin 32) (imm : BitVec 14)
  /-- MULI. Scalar arithmetic with a sign-extended imm14 (R111). -/
  | muli (lcn : Nat) (sd : Fin 32) (sa : Fin 32) (imm : BitVec 14)
  /-- MINI. Scalar arithmetic with a sign-extended imm14 (R111). -/
  | mini (lcn : Nat) (sd : Fin 32) (sa : Fin 32) (imm : BitVec 14)
  /-- MAXI. Scalar arithmetic with a sign-extended imm14 (R111). -/
  | maxi (lcn : Nat) (sd : Fin 32) (sa : Fin 32) (imm : BitVec 14)
  /-- LI. R112. -/
  | li (lcn : Nat) (sd : Fin 32) (imm : BitVec 19)
  /-- LIH. R112. -/
  | lih (lcn : Nat) (sd : Fin 32) (q : BitVec 2) (imm : BitVec 16)
  /-- LC_SET. R113. -/
  | lcSet (lcn : Nat) (cn : Fin 16) (imm : BitVec 20)
  /-- LC_ADD. R113. -/
  | lcAdd (lcn : Nat) (cn : Fin 16) (imm : BitVec 20)
  /-- LC_MOV. R113. -/
  | lcMov (lcn : Nat) (cn : Fin 16) (sa : Fin 32)
  /-- MOV_C. R113. -/
  | movC (lcn : Nat) (sd : Fin 32) (cn : Fin 16)
  /-- CMP. R114. -/
  | cmp (lcn : Nat) (kd : Fin 8) (cond : BitVec 4) (sa : Fin 32) (sb : Fin 32)
  /-- CMPI. R114. -/
  | cmpi (lcn : Nat) (kd : Fin 8) (cond : BitVec 4) (sa : Fin 32) (imm : BitVec 12)
  /-- KOP. R115. -/
  | kop (lcn : Nat) (kd : Fin 8) (ka : Fin 8) (kb : Fin 8) (fn : BitVec 3)
  /-- BR. R116. -/
  | br (lcn : Nat) (target : BitVec 14)
  /-- BR_K. R116. -/
  | brK (lcn : Nat) (kn : Fin 8) (sense : Bool) (target : BitVec 14)
  /-- BR_C. R116. -/
  | brC (lcn : Nat) (cn : Fin 16) (target : BitVec 14)
  /-- SEM_INC. R117. -/
  | semInc (lcn : Nat) (mn : BitVec 6) (imm : BitVec 16)
  /-- SEM_SET. R117. -/
  | semSet (lcn : Nat) (mn : BitVec 6) (imm : BitVec 16)
  /-- SEM_W. R117. -/
  | semW (lcn : Nat) (mn : BitVec 6) (consume : Bool) (target : BitVec 16)
  /-- WAIT_T. R119. -/
  | waitT (lcn : Nat) (sa : Fin 32)
  /-- TIME_RD. R119. -/
  | timeRd (lcn : Nat) (sd : Fin 32)
  /-- MARK. R120. -/
  | mark (lcn : Nat) (sa : Fin 32) (id : BitVec 16)
  /-- DMAI. R121. -/
  | dmai (lcn : Nat) (kd : Fin 8) (sa : Fin 32)
  /-- SCALE_DN. R122. -/
  | scaleDn (lcn : Nat) (sd : Fin 32) (sa : Fin 32) (sh : BitVec 4)
  /-- FLAG_K. R123. -/
  | flagK (lcn : Nat) (kd : Fin 8)
  /-- FLAG_CLR. R123. -/
  | flagClr (lcn : Nat)
  /-- END. R124. -/
  | endOp (lcn : Nat)
  /-- CORE_COMPLETE. After END the core reports its part complete (R124). -/
  | coreComplete (lcn : Nat)
  /-- LD_B. Load from lead data memory (R125). -/
  | ldB (lcn : Nat) (sd : Fin 32) (sa : Fin 32) (imm : BitVec 14)
  /-- LD_H. Load from lead data memory (R125). -/
  | ldH (lcn : Nat) (sd : Fin 32) (sa : Fin 32) (imm : BitVec 14)
  /-- LD_W. Load from lead data memory (R125). -/
  | ldW (lcn : Nat) (sd : Fin 32) (sa : Fin 32) (imm : BitVec 14)
  /-- LD_D. Load from lead data memory (R125). -/
  | ldD (lcn : Nat) (sd : Fin 32) (sa : Fin 32) (imm : BitVec 14)
  /-- ST_B. Store to lead data memory (R125). -/
  | stB (lcn : Nat) (sb : Fin 32) (sa : Fin 32) (imm : BitVec 14)
  /-- ST_H. Store to lead data memory (R125). -/
  | stH (lcn : Nat) (sb : Fin 32) (sa : Fin 32) (imm : BitVec 14)
  /-- ST_W. Store to lead data memory (R125). -/
  | stW (lcn : Nat) (sb : Fin 32) (sa : Fin 32) (imm : BitVec 14)
  /-- ST_D. Store to lead data memory (R125). -/
  | stD (lcn : Nat) (sb : Fin 32) (sa : Fin 32) (imm : BitVec 14)
  /-- FADD_D. FP64 arithmetic (R61). -/
  | faddD (lcn : Nat) (sd : Fin 32) (sa : Fin 32) (sb : Fin 32)
  /-- FSUB_D. FP64 arithmetic (R61). -/
  | fsubD (lcn : Nat) (sd : Fin 32) (sa : Fin 32) (sb : Fin 32)
  /-- FMUL_D. FP64 arithmetic (R61). -/
  | fmulD (lcn : Nat) (sd : Fin 32) (sa : Fin 32) (sb : Fin 32)
  /-- FMA_D. FP64 fused multiply-add (R61). -/
  | fmaD (lcn : Nat) (sd : Fin 32) (sa : Fin 32) (sb : Fin 32) (sc : Fin 32)
  /-- FDIV_D. FP64 divide (R61). -/
  | fdivD (lcn : Nat) (sd : Fin 32) (sa : Fin 32) (sb : Fin 32)
  /-- FSQRT_D. FP64 square root (R61). -/
  | fsqrtD (lcn : Nat) (sd : Fin 32) (sa : Fin 32)
  /-- FCMP_D. FP64 comparison (R114). -/
  | fcmpD (lcn : Nat) (kd : Fin 8) (cond : BitVec 4) (sa : Fin 32) (sb : Fin 32)
  /-- CVT_D_L. Conversion (R126). -/
  | cvtDL (lcn : Nat) (sd : Fin 32) (sa : Fin 32)
  /-- CVT_L_D. Conversion (R126). -/
  | cvtLD (lcn : Nat) (sd : Fin 32) (sa : Fin 32)
  /-- CVT_D_F. Conversion (R126). -/
  | cvtDF (lcn : Nat) (sd : Fin 32) (sa : Fin 32)
  /-- CVT_F_D. Conversion (R126). -/
  | cvtFD (lcn : Nat) (sd : Fin 32) (sa : Fin 32)
  /-- BR_I. R127. -/
  | brI (lcn : Nat) (sa : Fin 32)
  /-- CALL. R127. -/
  | call (lcn : Nat) (target : BitVec 14)
  /-- RET. R127. -/
  | ret (lcn : Nat)
  /-- TCFG. TCFG with rel = 0 (R129); `al` is the field that admits overlap. -/
  | tcfg (lcn : Nat) (tn : Fin 16) (sa : Fin 32) (al : Bool)
  /-- TCFG_RELEASE. TCFG with rel = 1 (R131). -/
  | tcfgRelease (lcn : Nat) (tn : Fin 16)
  /-- LDS. R133. -/
  | lds (lcn : Nat) (tg : Fin 16) (gm1 : BitVec 2) (kslice : BitVec 5) (nblock : BitVec 3) (arr : BitVec 2)
  /-- LDS_T. R133. -/
  | ldsT (lcn : Nat) (tg : Fin 16) (gm1 : BitVec 2) (kslice : BitVec 5) (nblock : BitVec 3) (arr : BitVec 2)
  /-- SWAP. R83. -/
  | swap (lcn : Nat)
  /-- MMA. R134. -/
  | mma (lcn : Nat) (sa : Fin 32) (sb : Fin 32) (msem : BitVec 6) (arr : BitVec 2)
  /-- MMA_T. R134. -/
  | mmaT (lcn : Nat) (sa : Fin 32) (sb : Fin 32) (msem : BitVec 6) (arr : BitVec 2)
  /-- MWAIT. R135. -/
  | mwait (lcn : Nat) (mn : BitVec 6) (consume : Bool) (target : BitVec 16)
  /-- PASS_START. The next pass of the core starts streaming (R94). -/
  | passStart (lcn : Nat)
  /-- PASS_COMMIT. The oldest pass in the array commits (R80). -/
  | passCommit (lcn : Nat)
  /-- VOP_ADD. Elementwise operation (R140). -/
  | vopAdd (lcn : Nat) (td : Fin 16) (a : BitVec 7) (b : BitVec 7) (cr : Fin 16)
  /-- VOP_SUB. Elementwise operation (R140). -/
  | vopSub (lcn : Nat) (td : Fin 16) (a : BitVec 7) (b : BitVec 7) (cr : Fin 16)
  /-- VOP_MUL. Elementwise operation (R140). -/
  | vopMul (lcn : Nat) (td : Fin 16) (a : BitVec 7) (b : BitVec 7) (cr : Fin 16)
  /-- VOP_FMA. Elementwise operation (R140). -/
  | vopFma (lcn : Nat) (td : Fin 16) (a : BitVec 7) (b : BitVec 7) (cr : Fin 16)
  /-- VOP_MAX. Elementwise operation (R140). -/
  | vopMax (lcn : Nat) (td : Fin 16) (a : BitVec 7) (b : BitVec 7) (cr : Fin 16)
  /-- VOP_MIN. Elementwise operation (R140). -/
  | vopMin (lcn : Nat) (td : Fin 16) (a : BitVec 7) (b : BitVec 7) (cr : Fin 16)
  /-- VOP_ABS. Elementwise operation (R140). -/
  | vopAbs (lcn : Nat) (td : Fin 16) (a : BitVec 7) (b : BitVec 7) (cr : Fin 16)
  /-- VOP_NEG. Elementwise operation (R140). -/
  | vopNeg (lcn : Nat) (td : Fin 16) (a : BitVec 7) (b : BitVec 7) (cr : Fin 16)
  /-- VOP_EXP. Elementwise operation (R140). -/
  | vopExp (lcn : Nat) (td : Fin 16) (a : BitVec 7) (b : BitVec 7) (cr : Fin 16)
  /-- VOP_LOG. Elementwise operation (R140). -/
  | vopLog (lcn : Nat) (td : Fin 16) (a : BitVec 7) (b : BitVec 7) (cr : Fin 16)
  /-- VOP_RECIP. Elementwise operation (R140). -/
  | vopRecip (lcn : Nat) (td : Fin 16) (a : BitVec 7) (b : BitVec 7) (cr : Fin 16)
  /-- VOP_RSQRT. Elementwise operation (R140). -/
  | vopRsqrt (lcn : Nat) (td : Fin 16) (a : BitVec 7) (b : BitVec 7) (cr : Fin 16)
  /-- VOP_TANH. Elementwise operation (R140). -/
  | vopTanh (lcn : Nat) (td : Fin 16) (a : BitVec 7) (b : BitVec 7) (cr : Fin 16)
  /-- VOP_MOV. Elementwise operation (R140). -/
  | vopMov (lcn : Nat) (td : Fin 16) (a : BitVec 7) (b : BitVec 7) (cr : Fin 16)
  /-- VRED_SUM. Reduction into a tile element (R141). -/
  | vredSum (lcn : Nat) (td : Fin 16) (a : BitVec 7) (b : BitVec 7) (cr : Fin 16) (sh : BitVec 2)
  /-- VRED_MAX. Reduction into a tile element (R141). -/
  | vredMax (lcn : Nat) (td : Fin 16) (a : BitVec 7) (b : BitVec 7) (cr : Fin 16) (sh : BitVec 2)
  /-- VRED_SSQ. Reduction into a tile element (R141). -/
  | vredSsq (lcn : Nat) (td : Fin 16) (a : BitVec 7) (b : BitVec 7) (cr : Fin 16) (sh : BitVec 2)
  /-- VRED_DOT. Reduction into a tile element (R141). -/
  | vredDot (lcn : Nat) (td : Fin 16) (a : BitVec 7) (b : BitVec 7) (cr : Fin 16) (sh : BitVec 2)
  /-- VRED_S_SUM. Reduction into a scalar register (R142). -/
  | vredSSum (lcn : Nat) (sd : Fin 32) (a : BitVec 7) (b : BitVec 7) (cr : Fin 16)
  /-- VRED_S_MAX. Reduction into a scalar register (R142). -/
  | vredSMax (lcn : Nat) (sd : Fin 32) (a : BitVec 7) (b : BitVec 7) (cr : Fin 16)
  /-- VRED_S_SSQ. Reduction into a scalar register (R142). -/
  | vredSSsq (lcn : Nat) (sd : Fin 32) (a : BitVec 7) (b : BitVec 7) (cr : Fin 16)
  /-- VRED_S_DOT. Reduction into a scalar register (R142). -/
  | vredSDot (lcn : Nat) (sd : Fin 32) (a : BitVec 7) (b : BitVec 7) (cr : Fin 16)
  /-- CVT. R143. -/
  | cvt (lcn : Nat) (td : Fin 16) (a : BitVec 7) (ss : Fin 32) (cr : Fin 16) (g : Bool)
  /-- RNG. R144. -/
  | rng (lcn : Nat) (td : Fin 16) (ss : Fin 32) (cr : Fin 16)
  /-- UPDC. R145, R169. -/
  | updc (lcn : Nat) (tw : Fin 16) (a : BitVec 7) (tq : Fin 16) (cr : Fin 16)
  /-- VSIG. R146. -/
  | vsig (lcn : Nat) (mn : BitVec 6) (imm : BitVec 16)
  /-- VWAIT. R146. -/
  | vwait (lcn : Nat) (mn : BitVec 6) (consume : Bool) (target : BitVec 16)
  /-- TLD. R148. -/
  | tld (lcn : Nat) (tn : Fin 16) (sa : Fin 32)
  /-- TST. R148. -/
  | tst (lcn : Nat) (tn : Fin 16) (sa : Fin 32)
  /-- ARD. R149. -/
  | ard (lcn : Nat) (tn : Fin 16) (aa : Fin 64) (row0 : BitVec 5) (nm1 : BitVec 5) (cr : Fin 16)
  /-- RESULT_LAND. The earliest result in flight on the core lands (R106). -/
  | resultLand (lcn : Nat)
  /-- SEMAPHORE_UPDATE. The earliest semaphore updates made on the core land on their counts (R189). -/
  | semaphoreUpdate (lcn : Nat)
  /-- WAITER_WAKE. The satisfied waiter `eng` (code of R187) resumes (R194). -/
  | waiterWake (lcn : Nat) (eng : Nat)
  /-- WAIT_T_RESUME. The time copy reaches the WAIT.T target and issue resumes (R57). -/
  | waitTResume (lcn : Nat)
  /-- DESCRIPTOR_START. The descriptor at the queue head starts (R274). -/
  | descriptorStart (lcn : Nat)
  /-- RUN_AHEAD_TOUCH. A touch of a placement block reaches the directory (R259). -/
  | runAheadTouch (lcn : Nat) (block : Nat)
  /-- SLICE_REQUEST. The request in a slot of the core's fetch/store engine is served; `err` 0 no memory error, 1 corrected, 2 uncorrectable (R221, R226, R228). -/
  | sliceRequest (lcn : Nat) (slot : Nat) (err : Nat)
  /-- REQUEST_FAILED. The request in a slot fails (R279). -/
  | requestFailed (lcn : Nat) (slot : Nat)
  /-- WRITE_ACK. The acknowledgement of a slot's write returns (R276). -/
  | writeAck (lcn : Nat) (slot : Nat)
  /-- ITEM_COMPLETE. An item of the core completes (R276). -/
  | itemComplete (lcn : Nat) (uid : Nat)
  /-- ITEM_DEADLINE. An item's deadline tick arrives (R275). -/
  | itemDeadline (lcn : Nat) (uid : Nat)
  /-- CREDIT_GRANT. A landing buffer or tracking entry of the core's arrival path serves the oldest waiting request (R280). -/
  | creditGrant (lcn : Nat)
  /-- ARRIVAL_LAND. The oldest request in a landing buffer of the core lands (R53). -/
  | arrivalLand (lcn : Nat)
  /-- MOVE_START. A mover starts the oldest waiting move of the highest class (R244). -/
  | moveStart (mover : Nat)
  /-- MOVE_COMMIT. A move's last request is acknowledged; `err` an uncorrectable error at its source (R240, R228). -/
  | moveCommit (block : Nat) (err : Bool)
  /-- COW_COMMIT. A copy-on-write commits (R242). -/
  | cowCommit (block : Nat)
  /-- PATROL_SCRUB. A slice's patrol reads memory; `err` 0 none, 1 corrected, 2 uncorrectable (R230). -/
  | patrolScrub (heart : Bool) (slice : Nat) (addr : Nat) (err : Nat)
  /-- HEART_STACK_FAILURE. A stack fails at run time (R392). -/
  | heartStackFailure (stack : Nat)
  /-- TICK. Fabric time reaches the next tick boundary (R326). -/
  | tick
  /-- COMMAND_RELEASE. The release time of the k-th armed command arrives (R338). -/
  | commandRelease (k : Nat)
  /-- COMMAND_DEADLINE. The deadline of the k-th outstanding command arrives (R355). -/
  | commandDeadline (k : Nat)
  /-- FENCED_COMMAND_EFFECT. The k-th command waiting on its fence takes effect (R354). -/
  | fencedCommandEffect (k : Nat)
  /-- JOB_LOAD. R363. -/
  | jobLoad (h : Hdr) (p : JobLoad)
  /-- JOB_PLACE. Freed cores let a waiting job be placed (R261, R370). -/
  | jobPlace
  /-- JOB_START. R362, R368. -/
  | jobStart (h : Hdr)
  /-- JOB_PREEMPT. R362, R368. -/
  | jobPreempt (h : Hdr)
  /-- STOP_REQUEST. A stop request reaches the core (R379). -/
  | stopRequest (lcn : Nat)
  /-- CORE_SAVE_DONE. The core's save completes (R383). -/
  | coreSaveDone (lcn : Nat)
  /-- JOB_RESUME. R362, R368. -/
  | jobResume (h : Hdr)
  /-- JOB_UNLOAD. R362, R368. -/
  | jobUnload (h : Hdr)
  /-- JOB_RESET. R362, R368. -/
  | jobReset (h : Hdr)
  /-- CELL_REPLACE. R397. -/
  | cellReplace (h : Hdr) (cell : Nat)
  /-- MCAST_SET. R281. -/
  | mcastSet (h : Hdr) (group : Nat) (count : Nat) (addr : Nat)
  /-- OBJ_MAP. R235. -/
  | objMap (h : Hdr) (p : ObjMap)
  /-- OBJ_UNMAP. R239. -/
  | objUnmap (h : Hdr) (obj : Nat)
  /-- PLACE_RISE. R247. -/
  | placeRise (h : Hdr) (obj : Nat) (first : Nat) (count : Nat)
  /-- PLACE_SINK. R247. -/
  | placeSink (h : Hdr) (obj : Nat) (first : Nat) (count : Nat)
  /-- PIN. R248. -/
  | pin (h : Hdr) (obj : Nat)
  /-- UNPIN. R248. -/
  | unpin (h : Hdr) (obj : Nat)
  /-- WIN_SET. R252. -/
  | winSet (h : Hdr) (win : Nat) (addr : Nat)
  /-- WIN_START. R253. -/
  | winStart (h : Hdr) (win : Nat)
  /-- WIN_STOP. R256. -/
  | winStop (h : Hdr) (win : Nat)
  /-- WINDOW_CURSOR_ADVANCE. A window's cursor moves on, at a planned start or at a demand request (R253). -/
  | windowCursorAdvance (job : Nat) (win : Nat) (byTime : Bool)
  /-- WINDOW_LATE_RECORD. The grace of a region has passed (R255). -/
  | windowLateRecord (job : Nat) (win : Nat) (region : Nat)
  /-- WINDOW_RESTART. A periodic window restarts (R256). -/
  | windowRestart (job : Nat) (win : Nat)
  /-- SNAPSHOT. R404. -/
  | snapshot (h : Hdr) (p : SnapSrc)
  /-- DRAIN_CHECK. The device judges its drain at T + 2 ms (R407). -/
  | drainCheck (job : Nat)
  /-- EPOCH_ADVANCE. The state images are written and the epoch advances (R408, R409). -/
  | epochAdvance (job : Nat)
  /-- STOP_END. The stop ends after the reserve top-up (R405). -/
  | stopEnd (job : Nat)
  /-- STOP_BOUND. The stop bound expires (R405). -/
  | stopBound (job : Nat)
  /-- IMAGE_TAKEN. Every destination has acknowledged or failed the next image (R412). -/
  | imageTaken (job : Nat) (buddyOk : Bool) (nvmeOk : Bool) (readErr : Bool)
  /-- BUDDY_IMAGE_RECEIVE. A buddy receives an image, or a manifest whose digest matches or not (R415). -/
  | buddyImageReceive (x : Nat) (y : Nat) (z : Nat) (tag : Nat) (manifest : Bool) (digestOk : Bool) (data : List Byte)
  /-- NVME_COMPLETION. An NVMe command of the job's copy completes (R414). -/
  | nvmeCompletion (job : Nat) (ok : Bool)
  /-- NVME_TIMEOUT. An NVMe command of the job's copy times out (R418). -/
  | nvmeTimeout (job : Nat)
  /-- RESTORE. R420. -/
  | restore (h : Hdr) (p : SnapSrc)
  /-- RESTORE_IMAGE. The next image of a restore is read and checked (R420). -/
  | restoreImage (job : Nat) (ok : Bool) (data : List Byte)
  /-- ADOPT. R421. -/
  | adopt (h : Hdr) (p : SnapSrc) (fx : Nat) (fy : Nat) (fz : Nat)
  /-- BOUNDED_LOSS. R419. -/
  | boundedLoss (h : Hdr) (n : Nat)
  /-- COLL_RUN. R315. -/
  | collRun (h : Hdr) (addr : Nat)
  /-- COLL_DATA. A peer's contribution to a running collective arrives (R317). -/
  | collData (ring : Nat) (tag : Nat) (axis : Nat) (pos : Nat) (data : List Byte)
  /-- COLL_CTRL. A collective abort arrives (R322). -/
  | collCtrl (ring : Nat) (tag : Nat)
  /-- GLOBAL_NORM_POLL. The engine reads the contribution slots again (R318). -/
  | globalNormPoll (ring : Nat) (tag : Nat)
  /-- COLL_COMPLETE. A collective completes (R320). -/
  | collComplete (ring : Nat) (tag : Nat)
  /-- FABRIC_CONFIG. R366. -/
  | fabricConfig (h : Hdr) (addr : Nat)
  /-- LINK_ENABLE. R305. -/
  | linkEnable (h : Hdr) (link : Nat)
  /-- LINK_DISABLE. R305. -/
  | linkDisable (h : Hdr) (link : Nat)
  /-- LINK_DISABLE_STOP. After 10 µs of idle flits the link stops its lanes (R305). -/
  | linkDisableStop (link : Nat)
  /-- SET_LINK_SHARES. R300. -/
  | setLinkShares (h : Hdr) (coll : Nat) (bulk : Nat)
  /-- SET_FLUE_SHARES. R28. -/
  | setFlueShares (h : Hdr) (sel : Nat) (demand : Nat) (move : Nat) (ember : Nat) (coll : Nat) (control : Nat)
  /-- RELEASE_CANCEL. R372. -/
  | releaseCancel (h : Hdr) (ring : Nat) (tag : Nat)
  /-- TRACE_CONFIG. R429. -/
  | traceConfig (h : Hdr) (die : Nat) (mode : Nat) (post : Nat) (size : Nat)
  /-- TRACE_TRIGGER. R430. -/
  | traceTrigger (h : Hdr) (mask : Nat)
  /-- COUNTER_SELECT. R423, R427. -/
  | counterSelect (h : Hdr) (cell : Nat) (counter : Nat) (event : Nat)
  /-- CAPTURE_SET. R434. -/
  | captureSet (h : Hdr) (slot : Nat) (engine : Nat) (addr : Nat)
  /-- CAPTURE_CLEAR. R434. -/
  | captureClear (h : Hdr) (slot : Nat)
  /-- CAPTURE_START. A capture engine starts the copy of a fired slot (R436). -/
  | captureStart (job : Nat) (slot : Nat) (engine : Nat)
  /-- CAPTURE_COMPLETE. A capture finishes (R437). -/
  | captureComplete (job : Nat) (slot : Nat)
  /-- ASH_CLEAR. R445. -/
  | ashClear (h : Hdr) (auth : List Byte)
  /-- RING_CREATE. R349. -/
  | ringCreate (h : Hdr) (ring : Nat) (sz : Nat) (c : Nat) (subBase : Nat) (cmpBase : Nat)
  /-- RING_DELETE. R349. -/
  | ringDelete (h : Hdr) (ring : Nat)
  /-- FW_STAGE_HEADER. FW_STAGE phase 0 (R457); `inline` the packet's data on ring 63 (R459). -/
  | fwStageHeader (h : Hdr) (off : Nat) (len : Nat) (src : Nat) (body : List Byte)
  /-- FW_STAGE_BODY. FW_STAGE phase 1 (R457). -/
  | fwStageBody (h : Hdr) (off : Nat) (len : Nat) (src : Nat) (body : List Byte)
  /-- FW_STAGE_FINISH. FW_STAGE phase 2 (R457). -/
  | fwStageFinish (h : Hdr)
  /-- FW_CONFIRM. R462. -/
  | fwConfirm (h : Hdr)
  /-- FENCE_CLEAR. R375. -/
  | fenceClear (h : Hdr) (phys : Nat) (auth : List Byte)
  /-- DEVICE_RESET. R472. -/
  | deviceReset (h : Hdr) (force : Nat)
  /-- POWER_LIMIT. R474. -/
  | powerLimit (h : Hdr) (watts : Nat)
  /-- PLACE_QUERY. R237. -/
  | placeQuery (h : Hdr) (obj : Nat) (first : Nat) (count : Nat) (buf : Nat)
  /-- JOB_QUERY. R369. -/
  | jobQuery (h : Hdr) (buf : Nat)
  /-- TIME_QUERY. R362. -/
  | timeQuery (h : Hdr)
  /-- REG_READ. R362. -/
  | regRead (h : Hdr) (addr : Nat) (words : Nat) (buf : Nat)
  /-- SNAP_QUERY. R417. -/
  | snapQuery (h : Hdr) (buf : Nat)
  /-- RING_QUERY. R362. -/
  | ringQuery (h : Hdr) (ring : Nat)
  /-- MGMT_DATAGRAM. A UDP datagram on port 7,416 (R374). -/
  | mgmtDatagram (ip : Nat) (port : Nat) (data : List Byte)
  /-- CONTROL_MSG. A peer firmware packet arrives for ring 62 (R373). -/
  | controlMsg (x : Nat) (y : Nat) (z : Nat) (jobTag : Nat) (data : List Byte)
  /-- ARP_REQUEST. An ARP request for an IPv4 address (R486). -/
  | arpRequest (target : Nat)
  /-- ICMP_ECHO. An ICMP echo request (R486). -/
  | icmpEcho (dst : Nat) (data : List Byte)
  /-- PTP_MESSAGE. A PTP exchange gives the master the grandmaster's time (R330). -/
  | ptpMessage (gmTime : Nat)
  /-- FLIT_RECEIVE. A flit is received; `fecOk` FEC corrected or passed every codeword it overlaps (R296). -/
  | flitReceive (link : Nat) (flit : List Byte) (fecOk : Bool)
  /-- NAK. A NAK flit names the seq the receiver expects (R297). -/
  | nak (link : Nat) (seq : Nat)
  /-- LINK_SILENCE. No flit for 10 µs (R304). -/
  | linkSilence (link : Nat)
  /-- RETRAIN_DONE. A retrain completes (R303). -/
  | retrainDone (link : Nat)
  /-- RETRAIN_TIMEOUT. A retrain passes 500 µs (R303). -/
  | retrainTimeout (link : Nat)
  /-- DETECT_SIGNAL. Signal on all four lanes (R303). -/
  | detectSignal (link : Nat)
  /-- DETECT_TIMEOUT. No signal for 1 s (R303). -/
  | detectTimeout (link : Nat)
  /-- TRAIN_DONE. Training completes (R303). -/
  | trainDone (link : Nat)
  /-- TRAIN_TIMEOUT. Training passes 80 ms (R303). -/
  | trainTimeout (link : Nat)
  /-- NEGOTIATE_DONE. The identity exchange completes (R303). -/
  | negotiateDone (link : Nat) (px : Nat) (py : Nat) (pz : Nat) (plink : Nat) (pgroup : Nat) (serial : Nat)
  /-- WRITE. A remote WRITE packet arrives: source, target word, tag, data, and the item it belongs to (R285). -/
  | write (x : Nat) (y : Nat) (z : Nat) (word : Nat) (jobTag : Nat) (data : List Byte) (item : Nat) (itemLen : Nat) (sem : Nat)
  /-- UNDELIVERABLE. An UNDELIVERABLE packet names a destination (R311). -/
  | undeliverable (x : Nat) (y : Nat) (z : Nat)
  /-- WRITE_ACK_TIMEOUT. A remote WRITE is unacknowledged for 2 ms (R311). -/
  | writeAckTimeout (x : Nat) (y : Nat) (z : Nat)
  /-- TIME_SYM. A time symbol arrives; the round trip, from the departure of the symbol that it echoes to its own arrival, is measured here (R333, R334). -/
  | timeSym (link : Nat) (tTx : Nat) (roundPs : Nat) (turnPs : Nat) (hops : Nat) (master : Nat)
  /-- TIME_SYM_SEND. A time symbol is sent (R333). -/
  | timeSymSend (link : Nat)
  /-- HOLDOVER_ENTRY. No symbol from the parent for 20 µs (R332). -/
  | holdoverEntry
  /-- UNLOCKED_ENTRY. HOLDOVER has lasted 1 ms (R332). -/
  | unlockedEntry
  /-- STANDBY_TAKEOVER. The standby master becomes master (R337). -/
  | standbyTakeover
  /-- PPS_MARK. A once-per-second mark at the time master (R329). -/
  | ppsMark
  /-- SOURCE_LOSS. The master loses its source (R331). -/
  | sourceLoss
  /-- SOURCE_RETURN. The source returns (R331). -/
  | sourceReturn
  /-- CORE_FAULT. A core fault 0x20 or 0x21 (R394). -/
  | coreFault (lcn : Nat) (code : Nat) (unit : Nat)
  /-- ROUTER_FAULT. A core's router fails (R25, R392). -/
  | routerFault (lcn : Nat)
  /-- MOVER_FAULT. R250, R392. -/
  | moverFault (mover : Nat)
  /-- ENGINE_FAULT. A collective (1), digest (2) or capture (3) engine fails (R392). -/
  | engineFault (kind : Nat) (num : Nat)
  /-- WARDEN_HEARTBEAT. A warden's heartbeat reaches its pair (R398). -/
  | wardenHeartbeat (warden : Nat)
  /-- WARDEN_FAULT. A warden fails (R398). -/
  | wardenFault (warden : Nat) (cause : Nat)
  /-- DEVICE_FATAL. A device-fatal fault (R399). -/
  | deviceFatal (code : Nat) (die : Nat) (unit : Nat)
  /-- TRACE_RECORD_WRITE. The die's writer takes the oldest record of a core's queue (R432). -/
  | traceRecordWrite (die : Nat) (lcn : Nat)
  /-- ASH_FLASH_COPY. The management controller copies the next Ash record to flash (R439). -/
  | ashFlashCopy
  /-- ASH_VIEW_WRITE. The next Ash record is written to the heart view (R439). -/
  | ashViewWrite
  /-- EVT_RF_READ. R426. -/
  | evtRfRead (lcn : Nat)
  /-- DEV_RF_READ. R447. -/
  | devRfRead (k : Nat)
  /-- REGISTER_WRITE. R8-R11. -/
  | registerWrite (addr : Nat) (width : Nat) (value : Nat)
  /-- HOST_ACCESS. A host-core load or store (R208, R219). -/
  | hostAccess (store : Bool) (addr : Nat) (width : Nat) (data : List Byte) (err : Nat)
  /-- PCIE_INBOUND. R485. -/
  | pcieInbound (fwOwned : Bool) (store : Bool) (addr : Nat) (len : Nat) (data : List Byte) (err : Nat)
  /-- I3C_PRIVATE_WRITE. R487. -/
  | i3cPrivateWrite (data : List Byte)
  /-- I3C_PRIVATE_READ. R487. -/
  | i3cPrivateRead
  /-- SETDASA. R487. -/
  | setdasa (addr7 : Nat) (dyn : Nat)
  /-- ENTDAA. R487. -/
  | entdaa (dyn : Nat)
  /-- POWER_ON_RESET. R472. -/
  | powerOnReset
  /-- RESET_N. RESET_N has been low for 1 µs, or rises (R472). -/
  | resetN (low : Bool)
  /-- PWR_OK_FALL. R472. -/
  | pwrOkFall
  /-- BROWN_OUT. R473. -/
  | brownOut (rail : Nat)
  /-- OVERVOLTAGE. R473. -/
  | overvoltage (rail : Nat)
  /-- KINDLING_START. The device leaves reset and boots (R456). -/
  | kindlingStart (b : BootEnv)
  /-- START_WATCHDOG. R461. -/
  | startWatchdog
  /-- CONFIRM_WATCHDOG. R461. -/
  | confirmWatchdog
  /-- ANNOUNCE. R465. -/
  | announce
  /-- HEADER. R465. -/
  | header (ip : Nat) (port : Nat) (seq : Nat) (data : List Byte)
  /-- BODY. R465. -/
  | body (ip : Nat) (port : Nat) (seq : Nat) (off : Nat) (data : List Byte)
  /-- FINISH. R465. -/
  | finish (ip : Nat) (port : Nat) (seq : Nat) (b : BootEnv)
  /-- SETTINGS. R465. -/
  | settings (ip : Nat) (port : Nat) (seq : Nat) (data : List Byte)
  /-- BOOT. R465. -/
  | boot (ip : Nat) (port : Nat) (seq : Nat) (b : BootEnv)
  /-- RECOVERY_SESSION_TIMEOUT. R465. -/
  | recoverySessionTimeout
  /-- RECOVERY_TIMEOUT. R464. -/
  | recoveryTimeout (b : BootEnv)
  /-- ALIVE_TOGGLE. R377. -/
  | aliveToggle
  /-- POWER_SAMPLE. R474. -/
  | powerSample (watts : Nat)
  /-- POWER_LOOP. R475. -/
  | powerLoop
  /-- SENSOR_SAMPLE. R478: 64 compute-die sensors, then 4 of W and 4 of E, in units of 0.125 °C. -/
  | sensorSample (temps : List Int)
  /-- THERMAL_STEP. R478. -/
  | thermalStep (die : Nat) (rise : Bool)
  /-- SUPPLY_DIP. R479. -/
  | supplyDip (rail : Nat) (mv : Nat)
  /-- DIP_DECAY. R479. -/
  | dipDecay (die : Nat)
  /-- REF_CLK_LOSS. R483. -/
  | refClkLoss
  /-- LREF_LOSS. R483. -/
  | lrefLoss (east : Bool)
  /-- PCIE_REFCLK_LOSS. R483. -/
  | pcieRefclkLoss
  /-- TREF_LOSS. R483. -/
  | trefLoss
  /-- CELL_RESTORE_COMPLETE. R264, R388. -/
  | cellRestoreComplete (job : Nat) (cell : Nat)
  /-- RAIL_RETURN_ABOVE_WARNING. R479. -/
  | railReturnAboveWarning (rail : Nat)
  /-- REF_CLK_RETURN. R483. -/
  | refClkReturn
  /-- FLASH_OPERATION_COMPLETE. R376. -/
  | flashOperationComplete
  deriving DecidableEq, Repr

end Sys2Proof
end

