-- ==== Sys2Proof/Decode.lean ====
section
/-! DEFINITION. The command that a word of the opcode table spells.  The table gives no row any bits (its commands are bus and pin events,
firmware packets and slot instructions whose encodings Machine/Bundle.lean and Machine/Packets.lean hold), so no word spells one. -/

namespace Sys2Proof

/-- The command a table word spells: none, since no row has bits (log entry 13). -/
def decodeTableWord (_nbits _w : Nat) : Option Instr := none

end Sys2Proof
end

