-- ==== Sys2Proof/Config.lean ====
section
/-! DEFINITION. What the implementation fixes and the manual leaves open: the constants of the two grades (R3)
and the free values, which are constants without a body (log entries 1-4). -/

namespace Sys2Proof.Config

/-- A free value: an open outcome of the manual (R13, R65, R106, R132, ...).  `seed` is the state's counter of
free values, `purpose` names the place that draws it and `idx` the element. Nothing is known of it (log entry 1). -/
opaque free (seed purpose idx : Nat) : Nat

/-- The FP32 pattern a transcendental vector function gives for a finite operand outside the special cases of
R170: the manual bounds its error and does not give its bits (log entry 2). -/
opaque vecFn (fn : Nat) (x : W32) : W32

/-- SHA-384, an external standard the manual names and does not define (R413, R454; log entry 3). -/
opaque sha384 (bytes : List Byte) : List Byte

/-- ECDSA verification on brainpoolP384r1: public key, digest, r and s (R444, R453; log entry 3). -/
opaque ecdsaVerify (key digest r s : List Byte) : Bool

/-- Nanoseconds of one tick (R326). -/
def tickNs : Nat := 10240

/-- The grades (R3). -/
def coresPerDie : Nat := 160

/-- Physical cores (R3, R17). -/
def physCores : Nat := 640

end Sys2Proof.Config
end

