-- ==== Sys2Proof/Machine/Bits.lean ====
section
/-! DEFINITION. Bit fields, byte order and bounded-list helpers (R7: bit 0 least significant, little-endian). -/

namespace Sys2Proof.Machine

/-- Bits `[hi:lo]` of `x`, as a number (R7). -/
def bits (x hi lo : Nat) : Nat := (x >>> lo) % 2 ^ (hi + 1 - lo)

/-- Bit `i` of `x` (R7). -/
def bit (x i : Nat) : Bool := x.testBit i

/-- 1 for true, 0 for false. -/
def b2n (b : Bool) : Nat := if b then 1 else 0

/-- `x` with bits `[hi:lo]` replaced by `v`. -/
def setBits (x hi lo v : Nat) : Nat :=
  x - (bits x hi lo) * 2 ^ lo + (v % 2 ^ (hi + 1 - lo)) * 2 ^ lo

/-- The signed value of an `n`-bit field. -/
def signedOf (n x : Nat) : Int :=
  if x % 2 ^ n < 2 ^ (n - 1) then (x % 2 ^ n : Nat) else ((x % 2 ^ n : Nat) : Int) - (2 ^ n : Nat)

/-- The `n` little-endian bytes of `x` (R7). -/
def leBytes : Nat → Nat → List Byte
  | 0, _ => []
  | n + 1, x => BitVec.ofNat 8 x :: leBytes n (x / 256)

/-- The number that little-endian bytes spell (R7). -/
def leNat : List Byte → Nat
  | [] => 0
  | b :: bs => b.toNat + 256 * leNat bs

/-- `n` bytes of `bs` from offset `o`; bytes past the end read 0. -/
def bytesAt (bs : List Byte) (o n : Nat) : List Byte :=
  (List.range n).map fun i => bs.getD (o + i) 0

/-- The little-endian field of `n` bytes at offset `o` of a record. -/
def fieldAt (bs : List Byte) (o n : Nat) : Nat := leNat (bytesAt bs o n)

/-- A record of `n` bytes in which each listed field (offset, width, value) is placed; other bytes are 0. -/
def record (n : Nat) (fields : List (Nat × Nat × Nat)) : List Byte :=
  (List.range n).map fun i =>
    match fields.find? (fun f => f.1 ≤ i && i < f.1 + f.2.1) with
    | some f => BitVec.ofNat 8 (f.2.2 / 256 ^ (i - f.1))
    | none => 0

/-- `l` with element `i` replaced by `f` of it; `l` itself when there is no element `i`. -/
def modAt {α : Type} (l : List α) (i : Nat) (f : α → α) : List α :=
  match l, i with
  | [], _ => []
  | x :: xs, 0 => f x :: xs
  | x :: xs, k + 1 => x :: modAt xs k f

/-- ⌈a / b⌉ for b > 0. -/
def ceilDiv (a b : Nat) : Nat := (a + b - 1) / b

/-- A counter of `n` bits that wraps (R422). -/
def wrapAdd (n x k : Nat) : Nat := (x + k) % 2 ^ n

/-- A counter of `n` bits that holds at its largest value (R68, R234). -/
def satAdd (n x k : Nat) : Nat := min (x + k) (2 ^ n - 1)

/-- The tick number of fabric time `t` (R326). -/
def tickOf (t : Nat) : Nat := t / Config.tickNs

/-- The first tick boundary at or after fabric time `t` (R326). -/
def tickCeil (t : Nat) : Nat := ceilDiv t Config.tickNs * Config.tickNs

/-- Removes element `i` of a list. -/
def dropAt {α : Type} : List α → Nat → List α
  | [], _ => []
  | _ :: xs, 0 => xs
  | x :: xs, k + 1 => x :: dropAt xs k

/-- Integer square root of a number below `2 ^ (2 * k)`, bit by bit from bit `k - 1`. -/
def isqrtFrom : Nat → Nat → Nat → Nat
  | 0, _, s => s
  | k + 1, n, s => isqrtFrom k n (if (s + 2 ^ k) * (s + 2 ^ k) ≤ n then s + 2 ^ k else s)

/-- ⌊√n⌋. -/
def isqrt (n : Nat) : Nat := isqrtFrom (Nat.log2 n / 2 + 1) n 0

/-- One step of the CRC-32 of R294 on one bit of a reflected register. -/
def crcBit (c : Nat) : Nat := if c % 2 = 1 then (c / 2) ^^^ 0xEDB88320 else c / 2

/-- `crcBit` eight times. -/
def crcByte (c : Nat) : Nat := crcBit (crcBit (crcBit (crcBit (crcBit (crcBit (crcBit (crcBit c)))))))

/-- The CRC-32 of R294: IEEE 802.3, reflected, initial value all ones, final value inverted. -/
def crc32 (bs : List Byte) : Nat :=
  (bs.foldl (fun c b => crcByte (c ^^^ b.toNat)) 0xFFFFFFFF) ^^^ 0xFFFFFFFF

end Sys2Proof.Machine
end

