-- ==== Sys2Proof/Machine/Memory.lean ====
section
/-! DEFINITION. Byte stores in one canonical form: a list of (address, byte) pairs with strictly rising addresses in
which no byte is 0, an unlisted address reading 0 (log entry 5).  Every store of the device is one of these: scratch,
lead data memory, tile register file, accumulator buffer, the tiers, the flash. -/

namespace Sys2Proof.Machine

/-- A byte store. -/
abbrev Memory := List Host.Cell

namespace Memory

/-- What an unlisted address reads as (log entry 5: the manual gives no contents after reset, R472). -/
def blank : Byte := 0

/-- The byte at address `a`. -/
def get : Memory → Nat → Byte
  | [], _ => blank
  | c :: m, a => if c.1 = a then c.2 else get m a

/-- Places byte `b` at the head of `m` at address `a`, unless `b` is what an unlisted address reads as. -/
def cons (a : Nat) (b : Byte) (m : Memory) : Memory := if b = blank then m else (a, b) :: m

/-- Writes byte `b` at address `a`, keeping the canonical form. -/
def set : Memory → Nat → Byte → Memory
  | [], a, b => cons a b []
  | c :: m, a, b =>
    if c.1 = a then cons a b m
    else if a < c.1 then cons a b (c :: m)
    else c :: set m a b

/-- Writes consecutive bytes. -/
def write : Memory → Nat → List Byte → Memory
  | m, _, [] => m
  | m, a, b :: bs => write (set m a b) (a + 1) bs

/-- Reads `n` consecutive bytes. -/
def read (m : Memory) (a : Nat) : Nat → List Byte
  | 0 => []
  | n + 1 => get m a :: read m (a + 1) n

/-- Reads an `n`-byte little-endian number (R7). -/
def readLE (m : Memory) (a n : Nat) : Nat := leNat (read m a n)

/-- Writes an `n`-byte little-endian number (R7). -/
def writeLE (m : Memory) (a n v : Nat) : Memory := write m a (leBytes n v)

/-- Makes `n` bytes from `a` read 0. -/
def clear (m : Memory) (a n : Nat) : Memory := m.filter fun c => c.1 < a || a + n ≤ c.1

/-- The `n` bytes from `a` as a store of their own, starting at 0. -/
def slice (m : Memory) (a n : Nat) : Memory :=
  (m.filter fun c => a ≤ c.1 && c.1 < a + n).map fun c => (c.1 - a, c.2)

/-- Replaces the `n` bytes from `a` by the first `n` bytes of `p`. -/
def paste (m : Memory) (a n : Nat) (p : Memory) : Memory :=
  (m.filter fun c => c.1 < a) ++
    ((p.filter fun c => c.1 < n).map fun c => (c.1 + a, c.2)) ++
    (m.filter fun c => a + n ≤ c.1)

/-- The canonical form: addresses strictly rise and no entry equals what an unlisted address reads as. -/
def wf : Memory → Bool
  | [] => true
  | [c] => c.2 != blank
  | c :: d :: m => c.2 != blank && decide (c.1 < d.1) && wf (d :: m)

/-- Writes consecutive bytes of a store of `size` bytes whose addresses wrap (R49). -/
def writeWrap (size : Nat) : Memory → Nat → List Byte → Memory
  | m, _, [] => m
  | m, a, b :: bs => writeWrap size (set m (a % size) b) (a + 1) bs

/-- Reads consecutive bytes of a store of `size` bytes whose addresses wrap (R49). -/
def readWrap (size : Nat) (m : Memory) (a : Nat) : Nat → List Byte
  | 0 => []
  | n + 1 => get m (a % size) :: readWrap size m (a + 1) n

/-- The `w` bits from bit address `b` of a store of `size` bytes whose addresses wrap (R154). -/
def getBits (size : Nat) (m : Memory) (b w : Nat) : Nat :=
  (leNat (readWrap size m (b / 8) ((b % 8 + w + 7) / 8)) >>> (b % 8)) % 2 ^ w

/-- Replaces the `w` bits from bit address `b` (R154). -/
def putBits (size : Nat) (m : Memory) (b w v : Nat) : Memory :=
  let n := (b % 8 + w + 7) / 8
  let x := leNat (readWrap size m (b / 8) n)
  writeWrap size m (b / 8) (leBytes n (setBits x (b % 8 + w - 1) (b % 8) v))

end Memory

end Sys2Proof.Machine
end

