-- ==== Sys2Proof/Machine/Num.lean ====
section
/-! DEFINITION. Numbers: the element formats of R151 and FP64, exact values, the rounding of R159, the conversions of
R160, and IEEE arithmetic by exact result and one rounding (R61, R76, R140, R141). -/

namespace Sys2Proof.Machine

/-- An exact value: NaN, an infinity, or (−1)^neg × m × 2^e (R152; a zero keeps its sign, R153). -/
inductive Value where
  | nan
  | inf (neg : Bool)
  | fin (neg : Bool) (m : Nat) (e : Int)
  deriving DecidableEq, Repr

/-- Which special values a format has (R152). -/
inductive Specials where
  /-- exponent all ones: infinity or NaN (FP32, BF16, FP16, FP8 E5M2, FP64) -/
  | ieee
  /-- only the all-ones code is NaN (FP8 E4M3) -/
  | nanOnly
  /-- no special values (FP6, FP4) -/
  | none
  deriving DecidableEq, Repr

/-- An element format of R151: widths, bias, special values, largest finite code and canonical NaN. -/
structure Fmt where
  width : Nat
  mbits : Nat
  bias : Nat
  spec : Specials
  maxCode : Nat
  nanCode : Nat
  deriving DecidableEq, Repr

def fp32 : Fmt := ⟨32, 23, 127, .ieee, 0x7F7FFFFF, 0x7FC00000⟩
def bf16 : Fmt := ⟨16, 7, 127, .ieee, 0x7F7F, 0x7FC0⟩
def fp16 : Fmt := ⟨16, 10, 15, .ieee, 0x7BFF, 0x7E00⟩
def e4m3 : Fmt := ⟨8, 3, 7, .nanOnly, 0x7E, 0x7F⟩
def e5m2 : Fmt := ⟨8, 2, 15, .ieee, 0x7B, 0x7E⟩
def e3m2 : Fmt := ⟨6, 2, 3, .none, 0x1F, 0⟩
def e2m3 : Fmt := ⟨6, 3, 1, .none, 0x1F, 0⟩
def e2m1 : Fmt := ⟨4, 1, 1, .none, 0x7, 0⟩
/-- IEEE binary64 (R61). -/
def fp64 : Fmt := ⟨64, 52, 1023, .ieee, 0x7FEFFFFFFFFFFFFF, 0x7FF8000000000000⟩

/-- The element layout of a format code of R109; codes 11-15 use the layouts of 3-7 (R151). -/
def fmtOf (code : Nat) : Fmt :=
  match code with
  | 0 => fp32
  | 1 => bf16
  | 2 => fp16
  | 3 | 11 => e4m3
  | 4 | 12 => e5m2
  | 5 | 13 => e3m2
  | 6 | 14 => e2m3
  | 7 | 15 => e2m1
  | _ => fp32

/-- Codes 8, 9 and 10 are reserved (R109). -/
def fmtReserved (code : Nat) : Bool := 8 ≤ code && code ≤ 10

/-- Codes 11-15 are block-scaled (R109). -/
def fmtScaled (code : Nat) : Bool := 11 ≤ code && code ≤ 15

/-- Reduction elements per cell and cycle (R70). -/
def fmtE (code : Nat) : Nat :=
  match code with
  | 1 | 2 => 1
  | 7 | 15 => 4
  | _ => 2

/-- Maximum number of columns per tile row (R109). -/
def fmtMaxCols (code : Nat) : Nat :=
  match code with
  | 0 => 32
  | 1 | 2 => 64
  | 3 | 4 | 11 | 12 => 128
  | 5 | 6 | 13 | 14 => 168
  | 7 | 15 => 256
  | _ => 0

/-- Elements of a block for a block-size code (R109). -/
def blockSize (code : Nat) : Nat :=
  match code % 4 with
  | 0 => 16
  | 1 => 32
  | 2 => 64
  | _ => 128

/-- Exponent of the largest finite value (R151). -/
def Fmt.emax (f : Fmt) : Int := (f.maxCode / 2 ^ f.mbits : Nat) - (f.bias : Int)

/-- Smallest exponent of a normal value: 1 − bias (R152). -/
def Fmt.emin (f : Fmt) : Int := 1 - (f.bias : Int)

/-- Decodes an element code (R152). -/
def Fmt.decode (f : Fmt) (c : Nat) : Value :=
  let neg := bit c (f.width - 1)
  let mag := c % 2 ^ (f.width - 1)
  let ex := mag / 2 ^ f.mbits
  let fr := mag % 2 ^ f.mbits
  if mag > f.maxCode ∧ f.spec ≠ .none then
    if f.spec = .ieee ∧ fr = 0 then .inf neg else .nan
  else if ex = 0 then .fin neg fr (f.emin - f.mbits)
  else .fin neg (2 ^ f.mbits + fr) ((ex : Int) - f.bias - f.mbits)

/-- A code with its sign bit. -/
def Fmt.signed (f : Fmt) (neg : Bool) (mag : Nat) : Nat := b2n neg * 2 ^ (f.width - 1) + mag

/-- How a value between two grid points is rounded (R159); `toward` serves functions whose result the manual gives
within one unit of the last place (R170). -/
inductive RMode where
  | nearest
  | stoch (word : Nat)
  | toward (up : Bool)
  deriving DecidableEq, Repr

/-- `2 ^ k` times a number, or that number divided by it: the pair (numerator factor, denominator factor). -/
def pow2q (k : Int) : Nat × Nat := if 0 ≤ k then (2 ^ k.toNat, 1) else (1, 2 ^ (-k).toNat)

/-- ⌊log2 (num / den)⌋ for positive numbers. -/
def log2q (num den : Nat) : Int :=
  let k : Int := (Nat.log2 num : Int) - (Nat.log2 den : Int)
  let p := pow2q k
  if num * p.2 < den * p.1 then k - 1 else k

/-- The magnitude code of num/den × 2^e rounded on the grid of `f` continued upward without limit (R159); a result
above the largest finite value shows as a code above `maxCode`. -/
def Fmt.roundMag (f : Fmt) (mode : RMode) (num den : Nat) (e : Int) : Nat :=
  if num = 0 then 0 else
    let ee := max (log2q num den + e) f.emin
    let p := pow2q (e - ee + f.mbits)
    let nn := num * p.1
    let dd := den * p.2
    let n := nn / dd
    let r := nn % dd
    let up : Bool :=
      match mode with
      | .nearest => 2 * r > dd || (2 * r == dd && n % 2 == 1)
      | .stoch w => w < r * 2 ^ 32 / dd
      | .toward u => u && r != 0
    let n' := n + b2n up
    -- n' < 2 ^ mbits only at the subnormal exponent; the code is linear in n' at one exponent
    ((ee - f.emin).toNat) * 2 ^ f.mbits + n'

/-- Result of a conversion: the code, and whether one of the cases of R160 arose. -/
structure Conv where
  code : Nat
  special : Bool
  deriving DecidableEq, Repr

/-- The code for a magnitude above the largest finite value or an infinity (R160); `g` is CVT with G = 1. -/
def Fmt.overflow (f : Fmt) (g neg : Bool) : Nat :=
  match f.spec with
  | .ieee => f.signed neg (f.maxCode + 1)
  | .nanOnly => if g then f.nanCode else f.signed neg f.maxCode
  | .none => f.signed neg f.maxCode

/-- Rounds (−1)^neg × num/den × 2^e to `f` (R159, R160). -/
def Fmt.convQ (f : Fmt) (mode : RMode) (g neg : Bool) (num den : Nat) (e : Int) : Conv :=
  let c := f.roundMag mode num den e
  if c > f.maxCode then ⟨f.overflow g neg, true⟩ else ⟨f.signed neg c, false⟩

/-- Converts an exact value to `f` (R158-R160). -/
def Fmt.conv (f : Fmt) (mode : RMode) (g : Bool) (x : Value) : Conv :=
  match x with
  | .nan => ⟨f.nanCode, true⟩
  | .inf neg => ⟨f.overflow g neg, true⟩
  | .fin neg m e => f.convQ mode g neg m 1 e

/-- Rounds to nearest, ties to even (G = 0). -/
def Fmt.rn (f : Fmt) (x : Value) : Nat := (f.conv .nearest false x).code

namespace Value

/-- +0. -/
def zero : Value := .fin false 0 0

/-- +1. -/
def one : Value := .fin false 1 0

/-- Is a NaN. -/
def isNan : Value → Bool
  | .nan => true
  | _ => false

/-- Is neither NaN nor an infinity. -/
def isFin : Value → Bool
  | .fin _ _ _ => true
  | _ => false

/-- Is a zero of either sign. -/
def isZero : Value → Bool
  | .fin _ m _ => m == 0
  | _ => false

/-- The sign. -/
def isNeg : Value → Bool
  | .nan => false
  | .inf n => n
  | .fin n _ _ => n

/-- Negation. -/
def neg : Value → Value
  | .nan => .nan
  | .inf n => .inf (!n)
  | .fin n m e => .fin (!n) m e

/-- Absolute value. -/
def abs : Value → Value
  | .nan => .nan
  | .inf _ => .inf false
  | .fin _ m e => .fin false m e

/-- A signed mantissa. -/
def sm (n : Bool) (m : Nat) : Int := if n then -(m : Int) else m

/-- Exact sum; +0 for opposite operands, −0 only for two negative zeros (R153, IEEE 754). -/
def add (a b : Value) : Value :=
  match a, b with
  | .nan, _ => .nan
  | _, .nan => .nan
  | .inf x, .inf y => if x = y then .inf x else .nan
  | .inf x, _ => .inf x
  | _, .inf y => .inf y
  | .fin n1 m1 e1, .fin n2 m2 e2 =>
    let e := min e1 e2
    let v := sm n1 m1 * 2 ^ (e1 - e).toNat + sm n2 m2 * 2 ^ (e2 - e).toNat
    if v = 0 then .fin (n1 && n2) 0 e else .fin (decide (v < 0)) v.natAbs e

/-- Exact product; infinity × 0 is NaN (R76, IEEE 754). -/
def mul (a b : Value) : Value :=
  match a, b with
  | .nan, _ => .nan
  | _, .nan => .nan
  | .inf x, .inf y => .inf (x != y)
  | .inf x, .fin n m _ => if m = 0 then .nan else .inf (x != n)
  | .fin n m _, .inf y => if m = 0 then .nan else .inf (n != y)
  | .fin n1 m1 e1, .fin n2 m2 e2 => .fin (n1 != n2) (m1 * m2) (e1 + e2)

/-- Exact scaling by a power of two. -/
def scale (a : Value) (k : Int) : Value :=
  match a with
  | .fin n m e => .fin n m (e + k)
  | x => x

/-- `a < b` for values neither of which is NaN; zeros compare equal. -/
def lt (a b : Value) : Bool :=
  match a, b with
  | .nan, _ => false
  | _, .nan => false
  | .inf x, .inf y => x && !y
  | .inf x, _ => x
  | _, .inf y => !y
  | .fin n1 m1 e1, .fin n2 m2 e2 =>
    let e := min e1 e2
    decide (sm n1 m1 * 2 ^ (e1 - e).toNat < sm n2 m2 * 2 ^ (e2 - e).toNat)

/-- Equality of values; false when either is NaN, and +0 equals −0 (R114). -/
def eqv (a b : Value) : Bool := !a.isNan && !b.isNan && !lt a b && !lt b a

/-- The larger of two values, NaN when either is (R140); for equal values, +0 before −0 (log entry 6). -/
def max (a b : Value) : Value :=
  if a.isNan || b.isNan then .nan
  else if lt a b then b else if lt b a then a
  else if a.isNeg then b else a

/-- The smaller of two values, NaN when either is (R140); for equal values, −0 before +0 (log entry 6). -/
def min (a b : Value) : Value :=
  if a.isNan || b.isNan then .nan
  else if lt a b then a else if lt b a then b
  else if a.isNeg then a else b

/-- The exact value of a signed integer. -/
def ofInt (i : Int) : Value := .fin (decide (i < 0)) i.natAbs 0

end Value

/-- Quotient in format `f`, rounded to nearest even (R61). -/
def Fmt.div (f : Fmt) (a b : Value) : Nat :=
  match a, b with
  | .nan, _ => f.nanCode
  | _, .nan => f.nanCode
  | .inf _, .inf _ => f.nanCode
  | .inf x, .fin n _ _ => f.overflow false (x != n)
  | .fin n _ _, .inf y => f.signed (n != y) 0
  | .fin n1 m1 e1, .fin n2 m2 e2 =>
    if m2 = 0 then (if m1 = 0 then f.nanCode else f.overflow false (n1 != n2))
    else (f.convQ .nearest false (n1 != n2) m1 m2 (e1 - e2)).code

/-- A finite value as an even power of two times a mantissa of at least 2 × (width + 2) bits. -/
def sqrtPrep (f : Fmt) (m : Nat) (e : Int) : Nat × Int :=
  let k := 2 * (f.width + 2)
  let m1 := m * 2 ^ k
  let e1 := e - k
  if e1 % 2 = 0 then (m1, e1) else (m1 * 2, e1 - 1)

/-- The exact square root bracketed for rounding: twice the integer root, plus one when a remainder is left. -/
def sqrtSticky (f : Fmt) (m : Nat) (e : Int) : Nat × Int :=
  let p := sqrtPrep f m e
  let r := isqrt p.1
  (2 * r + b2n (r * r != p.1), p.2 / 2 - 1)

/-- Square root in format `f`, rounded to nearest even (R61, R318); the root of −0 is −0. -/
def Fmt.sqrt (f : Fmt) (a : Value) : Nat :=
  match a with
  | .nan => f.nanCode
  | .inf n => if n then f.nanCode else f.overflow false false
  | .fin n m e =>
    if m = 0 then f.signed n 0
    else if n then f.nanCode
    else let p := sqrtSticky f m e; (f.convQ .nearest false false p.1 1 p.2).code

/-- An FP32 pattern's exact value. -/
def ofF32 (x : W32) : Value := fp32.decode x.toNat

/-- An exact value rounded to FP32, to nearest even. -/
def toF32 (x : Value) : W32 := BitVec.ofNat 32 (fp32.rn x)

/-- FP32 addition: one rounding (R141). -/
def f32add (a b : W32) : W32 := toF32 ((ofF32 a).add (ofF32 b))

/-- FP32 maximum with NaN propagation (R141). -/
def f32max (a b : W32) : W32 := toF32 ((ofF32 a).max (ofF32 b))

/-- An FP64 pattern's exact value. -/
def ofF64 (x : Word) : Value := fp64.decode x.toNat

/-- An exact value rounded to FP64, to nearest even (R61). -/
def toF64 (x : Value) : Word := BitVec.ofNat 64 (fp64.rn x)

/-- FP64 to signed 64-bit integer, to nearest even, saturating; NaN gives 0 (R126). -/
def toI64 (x : Value) : Word :=
  match x with
  | .nan => 0
  | .inf n => if n then BitVec.ofNat 64 (2 ^ 63) else BitVec.ofNat 64 (2 ^ 63 - 1)
  | .fin n m e =>
    let p := pow2q e
    let q := m * p.1 / p.2
    let r := m * p.1 % p.2
    let k := q + b2n (2 * r > p.2 || (2 * r == p.2 && q % 2 == 1))
    if n then (if k > 2 ^ 63 then BitVec.ofNat 64 (2 ^ 63) else BitVec.ofInt 64 (-(k : Int)))
    else (if k ≥ 2 ^ 63 then BitVec.ofNat 64 (2 ^ 63 - 1) else BitVec.ofNat 64 k)

/-- The value of an E8M0 scale code: 2^(x − 127), NaN for 0xFF (R155). -/
def scaleVal (c : Nat) : Value := if c = 255 then .nan else .fin false 1 ((c : Int) - 127)

/-- The scale code of a block of exact values (R161): 0xFF when an element is not finite. -/
def blockScale (f : Fmt) (xs : List Value) : Nat :=
  if xs.any (fun x => !x.isFin) then 255
  else
    let amax := xs.foldl (fun a x => a.max x.abs) Value.zero
    match amax with
    | .fin _ m e =>
      if m = 0 then 127
      else (max ((Nat.log2 m : Int) + e - f.emax) (-127) + 127).toNat
    | _ => 255

/-- An element of a block under its scale code, saturating to the largest finite value (R161). -/
def blockElem (f : Fmt) (mode : RMode) (sc : Nat) (x : Value) : Nat :=
  if sc = 255 then 0
  else
    match x.scale (127 - (sc : Int)) with
    | .fin n m e =>
      let c := f.roundMag mode m 1 e
      f.signed n (if c > f.maxCode then f.maxCode else c)
    | _ => 0

/-- The fixed pairwise tree of R492 over one level. -/
def treeLevel {α : Type} (g : α → α → α) : List α → List α
  | a :: b :: xs => g a b :: treeLevel g xs
  | xs => xs

/-- The fixed pairwise tree of R492; `fuel` bounds the levels and `d` answers for no values. -/
def treeFold {α : Type} (g : α → α → α) (d : α) : Nat → List α → α
  | _, [] => d
  | _, [x] => x
  | 0, x :: _ => x
  | n + 1, xs => treeFold g d n (treeLevel g xs)

/-- The fixed pairwise tree of R492. -/
def tree {α : Type} (g : α → α → α) (d : α) (xs : List α) : α := treeFold g d xs.length xs

end Sys2Proof.Machine
end

