-- ==== Sys2Proof/Machine/Cpu.lean ====
section
/-! DEFINITION. The execution state of one core: sequencer, stores, array, vector unit and sync unit (chapters 02, 03,
04, 07), as plain data.  The engines that move data and observe the core are in the files after this one. -/

namespace Sys2Proof.Machine

/-- Bytes of scratch (R37). -/
def scratchBytes : Nat := 2097152
/-- Bytes of the tile register file (R37). -/
def vfileBytes : Nat := 131072
/-- Bytes of the accumulator buffer (R37). -/
def accBytes : Nat := 262144
/-- Bytes of lead data memory (R60). -/
def leadBytes : Nat := 65536
/-- Bytes of program SRAM (R37). -/
def progBytes : Nat := 262144

/-- The signalling engines by their codes (R187). -/
def engSeq : Nat := 0
def engArr : Nat := 1
def engVec : Nat := 2
def engFsd : Nat := 3
def engArrival : Nat := 4

/-- CORE_STATE.state but for WAITING, which follows from the waits (R68). -/
inductive CoreSt where
  | idle
  | running
  | stopped
  | saving
  | fenced
  deriving DecidableEq, Repr

/-- A tile configuration (R129); `shared` is the field of bit 14 that admits overlap. -/
structure TileCfg where
  base : Nat
  rows : Nat
  fmt : Nat
  cols : Nat
  block : Nat
  scaleBase : Nat
  shared : Bool
  deriving DecidableEq, Repr

/-- One element written to a store: bit address, width in bits, value. -/
structure Elem where
  pos : Nat
  w : Nat
  v : Nat
  deriving DecidableEq, Repr

/-- A stationary block (R81, R82): arrangement code 1-3, format code, values by reduction element and column;
`bad` marks contents that R84 or R86 make unpredictable. -/
structure Block where
  arr : Nat
  fmt : Nat
  vals : List (List Value)
  bad : Bool
  deriving DecidableEq, Repr

/-- What a pass of a stopped array had read: its index, its stationary block, and the streaming rows (R87, R98). -/
structure Read where
  idx : Nat
  block : Block
  rows : List (List Value)
  deriving DecidableEq, Repr

/-- An MMA-family instruction with the words and tile configurations it captured (R134); `next` is the index of its first pass
that has not started. -/
structure Entry where
  /-- the cycle of its first issue, which names it -/
  uid : Nat
  issued : Nat
  m : Nat
  n : Nat
  k : Nat
  dest : Nat
  acc : Bool
  stats : List TileCfg
  statT : Bool
  addr : Nat
  pitch : Nat
  fmt : Nat
  block : Nat
  feedT : Bool
  sem : Nat
  arr : Nat
  next : Nat
  /-- re-entered at a resume and not yet committed (R98) -/
  restart : Bool
  /-- its next pass has its block written into the active elements directly (R98) -/
  direct : Bool
  /-- what its passes abandoned at a stop had read (R87) -/
  saw : List Read
  deriving DecidableEq, Repr

/-- What the pass queue keeps in issue order (R88, R135). -/
inductive QItem where
  | entry (e : Entry)
  | swap (issued : Nat)
  | wait (sem target : Nat) (consume : Bool)
  deriving DecidableEq, Repr

/-- A pass that has started and not committed, with its stationary block and the streaming rows its feeder queues have carried so far: the first
`done` have entered the array, the others wait in the queues (R90, R91). -/
structure PassRun where
  entry : Entry
  idx : Nat
  start : Nat
  commitAt : Nat
  adds : Bool
  last : Bool
  bad : Bool
  block : Block
  rows : List (List Value)
  done : Nat
  deriving DecidableEq, Repr

/-- The matrix array: pass queue, passes in the array, blocks and the cycles that govern them (R83-R96). -/
structure ArrayState where
  q : List QItem
  run : List PassRun
  active : Block
  shadow : Block
  /-- the cycle after the last streaming row of the last started pass -/
  streamEnd : Nat
  /-- the cycle in which the last started pass started streaming -/
  lastStart : Nat
  /-- `s` of the last wavefront, when one was carried -/
  wave : Option Nat
  /-- first cycle in which the shadow is free (R84) -/
  shadowFree : Nat
  /-- a shadow write fell in a cycle in which a pending SWAP made the shadow not free (R84) -/
  taint : Bool
  /-- first cycle in which the next pass may start after an MWAIT (R194) -/
  readyAt : Nat
  deriving DecidableEq, Repr

/-- What happens at one later cycle: a result lands, or a row of a move instruction is read (R104, R106). -/
inductive Act where
  | sreg (n : Nat) (v : Word)
  | lc (n : Nat) (v : W32)
  | kreg (n : Nat) (v : Bool)
  | ovf (v : Bool)
  | tile (es : List Elem)
  /-- a row a move instruction writes, and the scratch address it was read from: it is not written when the core stops first (R380) -/
  | row (es : List Elem) (src : Option Nat)
  | acc (es : List Elem)
  | scr (es : List Elem)
  | lead (off : Nat) (bs : List Byte)
  | shadow (b : Block)
  /-- the second half of a transposed half-rate stationary load: the group, the block's place in it, and the block as read in the cycle
  of issue (R92, R104) -/
  | readLds (stats : List TileCfg) (arr kslice nblock : Nat) (first : Block)
  | readTld (reg addr w : Nat)
  | readTst (reg addr w : Nat)
  | readArd (reg row : Nat) (fit : Bool)
  deriving DecidableEq, Repr

/-- An act with the cycle in which it falls due. -/
structure Pend where
  due : Nat
  act : Act
  deriving DecidableEq, Repr

/-- A semaphore update on its way: the cycle in which it lands on the count, held back until the data of the signalling operation can be
read, and the cycle `made` in which its latency alone brings it to the semaphore (R189-R193). -/
structure SemUpd where
  land : Nat
  sem : Nat
  isSet : Bool
  val : Nat
  made : Nat
  deriving DecidableEq, Repr

/-- A wait an engine registered in cycle `reg`; `wakeAt` once it is satisfied (R194-R197). -/
structure WaitRec where
  reg : Nat
  eng : Nat
  sem : Nat
  target : Nat
  consume : Bool
  wakeAt : Option Nat
  deriving DecidableEq, Repr

/-- CORE_FAULT (R68). -/
structure FaultReg where
  code : Nat
  pc : Nat
  slot : Nat
  unit : Nat
  valid : Bool
  deriving DecidableEq, Repr

/-- The execution state of a core. -/
structure Cpu where
  /-- counted cycles of the core domain (R64, R66) -/
  cycle : Nat
  st : CoreSt
  /-- END has issued (R124) -/
  ended : Bool
  lead : Bool
  pc : Nat
  lastPc : Nat
  /-- pending branch targets: bundles still to issue before the target, and the target (R41) -/
  brs : List (Nat × Nat)
  sregs : List Word
  lcs : List W32
  ks : List Bool
  sems : List W16
  tiles : List (Option TileCfg)
  vfile : Memory
  accs : Memory
  scratch : Memory
  leadMem : Memory
  prog : Memory
  /-- the return stack, newest first, at most 32 entries (R62) -/
  rets : List Nat
  array : ArrayState
  pend : List Pend
  /-- move instructions whose rows have not all landed: the cycle of the last landing, and the reads of all rows (R380) -/
  moves : List (Nat × List Act)
  sups : List SemUpd
  waits : List WaitRec
  /-- semaphores whose waits are evaluated at the end of the cycle, each with the cycle its update was made (R195) -/
  evals : List (Nat × Nat)
  /-- what this cycle's TST rows overwrote in scratch, this cycle's DMA writes there, and its writes to lead data memory (R50, R125) -/
  tstWas : List Elem
  dmaWas : List Elem
  leadWas : List Elem
  /-- a WAIT.T: target, issue cycle, and whether the copy of time had passed the target at issue (R57, R119) -/
  seqTime : Option (Nat × Nat × Bool)
  ovf : Bool
  passOverrun : Bool
  flt : FaultReg
  banked : Bool
  rafDepth : Nat
  owners : List Nat
  /-- the job seed, placed in the vector unit (R143) -/
  seed : Word
  /-- the last value the copy of fabric time gave (R57, R119) -/
  timeCopy : Nat
  deriving DecidableEq, Repr

/-- The arrangement SQUARE with no contents: the cells after reset (log entry 7: the manual gives no reset contents). -/
def Block.empty : Block := ⟨1, 0, [], false⟩

/-- The array with nothing in it. -/
def ArrayState.empty : ArrayState :=
  { q := [], run := [], active := .empty, shadow := .empty, streamEnd := 0, lastStart := 0, wave := none, shadowFree := 0, taint := false,
    readyAt := 0 }

/-- No fault recorded. -/
def FaultReg.none : FaultReg := ⟨0, 0, 0, 0, false⟩

/-- A core's execution state after a device reset (R42, R68, R472; log entry 7). -/
def Cpu.reset (lead : Bool) : Cpu :=
  { cycle := 0, st := .idle, ended := false, lead, pc := 0, lastPc := 0, brs := [], sregs := List.replicate 32 0,
    lcs := List.replicate 16 0, ks := List.replicate 8 false, sems := List.replicate 48 0, tiles := List.replicate 16 none,
    vfile := [], accs := [], scratch := [], leadMem := [], prog := [], rets := [], array := .empty, pend := [], moves := [], sups := [],
    waits := [], evals := [], tstWas := [], dmaWas := [], leadWas := [], seqTime := none, ovf := false, passOverrun := false, flt := .none, banked := false, rafDepth := 0,
    owners := List.replicate 48 0, seed := 0, timeCopy := 0 }

namespace Cpu

/-- The sequencer waits on a semaphore, behind a VWAIT or in WAIT.T (R39, R146). -/
def waiting (c : Cpu) : Bool :=
  c.seqTime.isSome || c.waits.any fun w => w.eng == engSeq || w.eng == engVec

/-- The sequencer issues a bundle in this cycle (R39, R98, R124): the core runs, nothing holds issue, and no entry re-entered at a
resume is still uncommitted. -/
def issues (c : Cpu) : Bool :=
  c.st == .running && !c.ended && !c.waiting &&
    !(c.array.q.any fun i => match i with
      | .entry e => e.restart
      | _ => false) &&
    !(c.array.run.any fun r => r.entry.restart)

/-- Entries held in the pass queue, 0-4 (R88). -/
def held (c : Cpu) : Nat :=
  (c.array.q.filter fun i => match i with
    | .entry _ => true
    | _ => false).length + (c.array.run.filter fun r => r.last).length

/-- A scalar register. -/
def sreg (c : Cpu) (n : Nat) : Word := c.sregs.getD n 0

/-- Tile Tn's configuration; a released tile acts as V0, 1 row, FP32, 32 columns (R131). -/
def tile (c : Cpu) (n : Nat) : TileCfg :=
  match c.tiles.getD n none with
  | some t => t
  | none => ⟨0, 1, 0, 32, 0, 0, false⟩

/-- A semaphore's count. -/
def sem (c : Cpu) (n : Nat) : Nat := (c.sems.getD n 0).toNat

end Cpu

end Sys2Proof.Machine
end

