-- ==== Sys2Proof/Machine/Tiles.lean ====
section
/-! DEFINITION. Tile configurations and the elements of tiles (R129-R132, R154-R156). -/

namespace Sys2Proof.Machine

/-- Bits of a tile element (R154). -/
def TileCfg.width (t : TileCfg) : Nat := (fmtOf t.fmt).width

/-- Elements of a tile. -/
def TileCfg.count (t : TileCfg) : Nat := t.rows * t.cols

/-- Blocks per tile row (R156). -/
def TileCfg.rowBlocks (t : TileCfg) : Nat := ceilDiv t.cols (blockSize t.block)

/-- Vector registers of the scale range (R129). -/
def TileCfg.scaleRegs (t : TileCfg) : Nat := ceilDiv (t.rows * t.rowBlocks) 128

/-- Bit address of element `p`, positions wrapping within the tile (R132, R154). -/
def TileCfg.elemPos (t : TileCfg) (p : Nat) : Nat :=
  let q := p % t.count
  (t.base + q / t.cols) * 1024 + (q % t.cols) * t.width

/-- Scale byte number of element `p` (R156). -/
def TileCfg.scaleIdx (t : TileCfg) (p : Nat) : Nat :=
  let q := p % t.count
  (q / t.cols) * t.rowBlocks + (q % t.cols) / blockSize t.block

/-- Bit address of scale byte `n` (R156). -/
def TileCfg.scalePos (t : TileCfg) (n : Nat) : Nat := (t.scaleBase * 128 + n) * 8

/-- The value of element `p` of a tile in the tile register file `m` (R152, R155). -/
def TileCfg.elem (t : TileCfg) (m : Memory) (p : Nat) : Value :=
  let x := (fmtOf t.fmt).decode (m.getBits vfileBytes (t.elemPos p) t.width)
  if fmtScaled t.fmt then x.mul (scaleVal (m.getBits vfileBytes (t.scalePos (t.scaleIdx p)) 8)) else x

/-- The zero bits a write leaves beyond the configured elements of the rows that hold positions `p` to `p + n - 1` (R154). -/
def TileCfg.tails (t : TileCfg) (p n : Nat) : List Elem :=
  let used := t.cols * t.width
  if used < 1024 then
    (((List.range n).map fun k => ((p + k) % t.count) / t.cols).eraseDups).map fun r => ⟨(t.base + r) * 1024 + used, 1024 - used, 0⟩
  else []

/-- The configuration a TCFG word names (R129). -/
def cfgOfWord (w : Nat) (shared : Bool) : TileCfg :=
  { base := bits w 9 0, rows := bits w 17 10 + 1, fmt := bits w 21 18, cols := bits w 29 22 + 1, block := bits w 31 30,
    scaleBase := bits w 41 32, shared }

/-- Vector registers of a tile and of its scale range, as (first, count). -/
def TileCfg.ranges (t : TileCfg) : List (Nat × Nat) :=
  (t.base, t.rows) :: (if fmtScaled t.fmt then [(t.scaleBase, t.scaleRegs)] else [])

/-- Two register ranges overlap. -/
def rangesMeet (a b : List (Nat × Nat)) : Bool :=
  a.any fun x => b.any fun y => x.1 < y.1 + y.2 && y.1 < x.1 + x.2

/-- The checks of R130 on a new configuration of tile `tn`. -/
def tcfgFaults (tiles : List (Option TileCfg)) (tn : Nat) (t : TileCfg) : Bool :=
  fmtReserved t.fmt || 1023 < t.base + t.rows - 1 ||
    (fmtScaled t.fmt && 1023 < t.scaleBase + t.scaleRegs - 1) || fmtMaxCols t.fmt < t.cols ||
    ((tiles.mapIdx fun i o => match o with
      | some u => i != tn && !u.shared && !t.shared && rangesMeet t.ranges u.ranges
      | none => false).any id)

end Sys2Proof.Machine
end

