-- ==== Sys2Proof/Machine/Feed.lean ====
section
/-! DEFINITION. What streams through the matrix array: arrangements, physical rows and feeder queues (R69-R71, R90, R91), stationary blocks
(R81, R82, R133), the cut into passes (R73, R74) and the streaming elements (R90, R92, R157). -/

namespace Sys2Proof.Machine

/-- A free choice among `n` outcomes; one outcome leaves nothing to choose. -/
def pick (sd purpose idx n : Nat) : Nat := if n ≤ 1 then 0 else Config.free sd purpose idx % n

/-- The purpose number of a draw of kind `k` at cycle `x` for item `i`. -/
def drawTag (k x i : Nat) : Nat := k + 64 * (i + 2 ^ 32 * x)

/-- Of two lists of values, each element the older or the newer one, freely where they differ (R65); an element only the newer list has is
the newer. -/
def mixVals (sd p : Nat) (old new : List Value) : List Value :=
  new.zipIdx.map fun x => match old[x.2]? with
    | some v => if v = x.1 then v else if pick sd p x.2 2 = 0 then v else x.1
    | none => x.1

/-- Logical rows of an arrangement code 1-3 (R69, R128). -/
def arrRows : Nat → Nat
  | 2 => 16
  | 3 => 8
  | _ => 32

/-- Logical columns of an arrangement (R69). -/
def arrCols : Nat → Nat
  | 2 => 64
  | 3 => 128
  | _ => 32

/-- The arrangement in use: the forced one, or R71's choice from K and e. -/
def arrOf (arr k e : Nat) : Nat :=
  if arr = 0 then (if k ≤ 8 * e then 3 else if k ≤ 16 * e then 2 else 1) else arr

/-- Physical rows joined into one logical row: logical row `j` is formed from the physical rows `j * physRows` to `(j + 1) * physRows - 1` (R69). -/
def physRows (arr : Nat) : Nat := 32 / arrRows arr

/-- The feeder queue, one for each physical row, that feeds logical row `j` (R37, R69). -/
def feedQueue (arr j : Nat) : Nat := j * physRows arr

/-- What one streaming row puts into the 32 feeder queues, `e` elements for each logical row: a queue that the arrangement does not name
stays empty (R69, R70, R90). -/
def feedRow (arr e : Nat) (xs : List Value) : List (List Value) :=
  (List.range 32).map fun q => if q % physRows arr = 0 then (xs.drop (q / physRows arr * e)).take e else []

/-- Streaming rows that a feeder queue holds: 2 KiB at 2 bytes for each physical row of the logical row and cycle (R37, R91). -/
def queueRows (arr : Nat) : Nat := 1024 / physRows arr

/-- An array operand format (R75). -/
def arrayFmt (f : Nat) : Bool := f != 0 && !fmtReserved f

/-- Formats whose transposed reads run at half rate (R92). -/
def halfRate (f : Nat) : Bool := f == 5 || f == 6 || f == 7 || f == 13 || f == 14 || f == 15

/-- The stationary group's K under LDS, or under LDS.T (R133). -/
def groupK (stats : List TileCfg) (t : Bool) : Nat :=
  match stats with
  | s :: _ => if t then s.cols else s.rows
  | [] => 0

/-- The stationary group's N (R133). -/
def groupN (stats : List TileCfg) (t : Bool) : Nat :=
  match stats with
  | s :: _ => stats.length * (if t then s.rows else s.cols)
  | [] => 0

/-- Every member has the first one's shape and format, which is an array format. -/
def groupFits (stats : List TileCfg) : Bool :=
  match stats with
  | s :: _ => arrayFmt s.fmt && stats.all fun u => u.fmt == s.fmt && u.rows == s.rows && u.cols == s.cols
  | [] => false

/-- Element (k, n) of a stationary group read from the tile register file `m` (R81, R133). -/
def groupElem (m : Memory) (stats : List TileCfg) (t : Bool) (k n : Nat) : Value :=
  match stats with
  | s :: _ =>
    let per := if t then s.rows else s.cols
    let u := stats.getD (n / per) s
    let row := if t then n % per else k
    let col := if t then k else n % per
    u.elem m ((row % u.rows) * u.cols + col % u.cols)
  | [] => .zero

/-- Block (kslice, nblock) of a stationary group; rows and columns beyond `K` and `N` are zeros (R82). -/
def loadBlock (m : Memory) (stats : List TileCfg) (t : Bool) (arr kslice nblock K N : Nat) : Block :=
  let f := match stats with
    | s :: _ => s.fmt
    | [] => 0
  let re := arrRows arr * fmtE f
  let c := arrCols arr
  { arr, fmt := f, bad := !groupFits stats
    vals := (List.range re).map fun kk => (List.range c).map fun nn =>
      let k := kslice * re + kk
      let n := nblock * c + nn
      if k < K ∧ n < N then groupElem m stats t k n else .zero }

/-- A block as the cells hold it, seen in another arrangement: physical row and column of a cell do not change (R69). -/
def Block.seenAs (arr : Nat) (b : Block) : Block :=
  let e := fmtE b.fmt
  let cell (kk nn : Nat) : Value :=
    let p := kk / e * physRows arr + nn / 32
    (b.vals.getD (p / physRows b.arr * e + kk % e) []).getD (p % physRows b.arr * 32 + nn % 32) .zero
  if b.arr = arr then b
  else { b with arr, vals := (List.range (arrRows arr * e)).map fun kk => (List.range (arrCols arr)).map fun nn => cell kk nn }

/-- A block whose elements are those of `a` or of `b`, each freely (R65, R104): in the form of `b`, and unpredictable where the two differ in
their format. -/
def mixBlocks (sd p : Nat) (a b : Block) : Block :=
  if a.fmt = b.fmt then
    { b with bad := a.bad || b.bad, vals := b.vals.zipIdx.map fun r => mixVals sd (p + 64 * r.2) (((a.seenAs b.arr).vals)[r.2]?.getD []) r.1 }
  else { b with bad := true }

/-- How an instruction is cut into passes (R73). -/
structure Fold where
  /-- K coverage of a pass, r × e -/
  re : Nat
  /-- columns of a pass -/
  c : Nat
  slices : Nat
  blocks : Nat
  groupRows : Nat
  groups : Nat
  deriving DecidableEq, Repr

/-- The cut of R73. -/
def foldOf (e : Entry) : Fold :=
  let re := arrRows e.arr * fmtE e.fmt
  let c := arrCols e.arr
  let gr := if e.feedT && halfRate e.fmt then 2048 else 4096
  { re, c, slices := ceilDiv e.k re, blocks := ceilDiv e.n c, groupRows := gr, groups := ceilDiv e.m gr }

/-- Passes of an instruction (R73). -/
def Entry.passes (e : Entry) : Nat := let f := foldOf e; f.slices * f.blocks * f.groups

/-- The streaming value at row `m`, reduction element `k` (R90, R92, R134, R157). -/
def streamElem (scr : Memory) (e : Entry) (m k : Nat) : Value :=
  let f := fmtOf e.fmt
  let line := if e.feedT then k else m
  let i := if e.feedT then m else k
  let count := if e.feedT then e.m else e.k
  let base := e.addr + 64 * e.pitch * line
  let x := f.decode (scr.getBits scratchBytes (base * 8 + i * f.width) f.width)
  if fmtScaled e.fmt then
    x.mul (scaleVal (scr.getBits scratchBytes ((base + ceilDiv (count * f.width) 8 + i / blockSize e.block) * 8) 8))
  else x

/-- Rows a pass streams (R74). -/
def passRows (e : Entry) (idx : Nat) : Nat :=
  let f := foldOf e
  min f.groupRows (e.m - (idx / (f.slices * f.blocks)) * f.groupRows)

/-- Cycles a pass streams (R93). -/
def passCycles (e : Entry) (idx : Nat) : Nat := passRows e idx * (if e.feedT && halfRate e.fmt then 2 else 1)

/-- The streaming row `i` of pass `idx` as scratch holds it: the elements of the pass's K slice (R74, R90). -/
def streamRow (scr : Memory) (e : Entry) (idx i : Nat) : List Value :=
  let f := foldOf e
  let k0 := (idx % f.slices) * f.re
  (List.range (min f.re (e.k - k0))).map fun j => streamElem scr e (idx / (f.slices * f.blocks) * f.groupRows + i) (k0 + j)

/-- Streaming rows of a pass that have entered the array before cycle `x` (R93, R94). -/
def PassRun.streamed (r : PassRun) (x : Nat) : Nat :=
  min (passRows r.entry r.idx) (ceilDiv (x - r.start) (if r.entry.feedT && halfRate r.entry.fmt then 2 else 1))

/-- The fill of the feeder queues up to cycle `x`: the rows that enter the array before it, and those that the queues hold behind them. A row
that waits in the queues may have been read at any cycle since it could enter them (R90; log entry 49). -/
def PassRun.fill (sd x : Nat) (scr : Memory) (r : PassRun) : PassRun :=
  let n := r.streamed x
  let upTo := min (passRows r.entry r.idx) (n + queueRows r.entry.arr)
  let tag (i : Nat) : Nat := drawTag 10 x i
  { r with
    rows := (r.rows.zipIdx.map fun q => if q.2 < r.done then q.1 else mixVals sd (tag q.2) q.1 (streamRow scr r.entry r.idx q.2)) ++
      (List.range (upTo - r.rows.length)).map fun i => streamRow scr r.entry r.idx (r.rows.length + i)
    done := max r.done n }

end Sys2Proof.Machine
end

