-- ==== Sys2Proof/Machine/Clock.lean ====
section
/-! DEFINITION. The core's clock: results land in the cycles their latencies give (R64, R106), SWAP wavefronts run (R83), and
semaphore updates land and wake waiters (R189-R195).  `sd` seeds the free values a meaning draws (log entry 1). -/

namespace Sys2Proof.Machine

/-- Two elements share a bit. -/
def Elem.overlaps (e f : Elem) : Bool := e.pos < f.pos + f.w && f.pos < e.pos + e.w

/-- Writes elements to a store. -/
def writeElems (size : Nat) (m : Memory) (es : List Elem) : Memory :=
  es.foldl (fun m e => m.putBits size e.pos e.w e.v) m

/-- What an early read sees of elements in flight: each one old or new, freely (R65). -/
def overlay (size sd p : Nat) (m : Memory) (es : List Elem) : Memory :=
  writeElems size m (es.mapIdx fun i e => if pick sd p i 2 = 1 then [e] else []).flatten

/-- The elements of `es` that stand beside `prior`, elements that landed in the same cycle: one of the two values (R106). -/
def settleElems (sd p : Nat) (prior es : List Elem) : List Elem :=
  (es.mapIdx fun i e => if prior.any e.overlaps && pick sd p i 2 = 0 then [] else [e]).flatten

/-- The distance between two engines in banked mode (R191). -/
def engDist (a b : Nat) : Nat :=
  ([[1, 9, 3, 3, 9], [9, 1, 3, 6, 6], [3, 3, 1, 6, 6], [3, 6, 6, 1, 3], [9, 6, 6, 3, 1]].getD a []).getD b 1

/-- The bits of a 128-byte row from `addr` of a store, as elements of `w` bits at `pos`; bits that fill no element go one by one. -/
def rowElems (size : Nat) (m : Memory) (addr pos w : Nat) : List Elem :=
  let n := 1024 / w
  ((List.range n).map fun i => ⟨pos + i * w, w, m.getBits size (addr * 8 + i * w) w⟩) ++
    (if n * w < 1024 then [⟨pos + n * w, 1024 - n * w, m.getBits size (addr * 8 + n * w) (1024 - n * w)⟩] else [])

/-- A row of elements as it goes to scratch from address `addr` (R148). -/
def scrRow (addr : Nat) (es : List Elem) : List Elem := es.map fun e => { e with pos := (addr * 8 + e.pos) % (scratchBytes * 8) }

/-- What a store holds in the bits that elements are about to overwrite. -/
def oldElems (size : Nat) (m : Memory) (es : List Elem) : List Elem := es.map fun e => { e with v := m.getBits size e.pos e.w }

/-- The bytes from `addr` of a store of `size` bytes, as elements. -/
def byteElems (size addr : Nat) (bs : List Byte) : List Elem := bs.zipIdx.map fun b => ⟨(addr + b.2) % size * 8, 8, b.1.toNat⟩

namespace Cpu

/-- Elements in flight to the tile register file. -/
def tileFlight (c : Cpu) : List Elem := (c.pend.map fun p => match p.act with | .tile es => es | .row es _ => es | _ => []).flatten
/-- Elements in flight to the accumulator buffer. -/
def accFlight (c : Cpu) : List Elem := (c.pend.map fun p => match p.act with | .acc es => es | _ => []).flatten
/-- Elements in flight to scratch. -/
def scrFlight (c : Cpu) : List Elem := (c.pend.map fun p => match p.act with | .scr es => es | _ => []).flatten

/-- What a TST whose rows are still to be read would write to scratch: the reader may see it too (R65; log entry 8). -/
def scrComing (c : Cpu) : List Elem :=
  (c.pend.map fun p => match p.act with
    | .readTst reg addr w => scrRow addr (rowElems vfileBytes c.vfile (reg * 128) 0 w)
    | _ => []).flatten

/-- What a move instruction whose rows are still to be read would write to the tile register file: the reader may see it too (R65;
log entry 8). -/
def tileComing (c : Cpu) : List Elem :=
  (c.pend.map fun p => match p.act with
    | .readTld reg addr w => rowElems scratchBytes c.scratch addr (reg * 1024) w
    | .readArd reg row _ => rowElems accBytes c.accs (row * 128) (reg * 1024) 32
    | _ => []).flatten

/-- The tile register file as a read in this cycle sees it (R65). -/
def viewTile (sd p : Nat) (c : Cpu) : Memory := overlay vfileBytes sd p c.vfile (c.tileFlight ++ c.tileComing)
/-- The committed accumulators as a read in this cycle sees them (R65, R80). -/
def viewAcc (sd p : Nat) (c : Cpu) : Memory := overlay accBytes sd p c.accs c.accFlight
/-- Scratch as a read in this cycle sees it (R65). -/
def viewScr (sd p : Nat) (c : Cpu) : Memory := overlay scratchBytes sd p c.scratch (c.scrFlight ++ c.scrComing)
/-- Scratch as a TLD row read in this cycle sees it: a byte that DMA writes in the cycle is the old or the new one (R50). -/
def viewMove (sd p : Nat) (c : Cpu) : Memory := overlay scratchBytes sd (p + 2 ^ 20) (c.viewScr sd p) c.dmaWas
/-- Scratch as a DMA read in this cycle sees it: a byte that TST writes in the cycle is the old or the new one (R50). -/
def viewDma (sd p : Nat) (c : Cpu) : Memory := overlay scratchBytes sd p c.scratch c.tstWas
/-- Lead data memory as a load in this cycle sees it: a byte that an arrival writes in the cycle is the old or the new one (R125). -/
def viewLead (sd p : Nat) (c : Cpu) : Memory := overlay leadBytes sd p c.leadMem c.leadWas
/-- The accumulators with every result in flight landed: what an adding pass adds to (R78). -/
def accNewest (c : Cpu) : Memory := writeElems accBytes c.accs c.accFlight

/-- Puts an act in the order of due cycles. -/
def insertPend (p : Pend) : List Pend → List Pend
  | [] => [p]
  | q :: qs => if p.due < q.due then p :: q :: qs else q :: insertPend p qs

/-- Schedules an act. -/
def later (due : Nat) (a : Act) (c : Cpu) : Cpu := { c with pend := insertPend ⟨due, a⟩ c.pend }

/-- A SWAP's exchange with its wavefront starting at `s` (R83, R84). -/
def exchange (s : Nat) (a : ArrayState) : ArrayState :=
  let b := a.taint
  { a with active := { a.shadow with bad := a.shadow.bad || b }, shadow := { a.active with bad := a.active.bad || b },
           wave := some s, shadowFree := s + 32, taint := false }

/-- An instruction that folds into two or more passes owns the shadow (R86). -/
def owned (a : ArrayState) : Bool := a.q.any fun i => match i with
  | .entry e => 0 < e.next
  | _ => false

/-- A SWAP is still pending in the pass queue. -/
def swapPending (a : ArrayState) : Bool := a.q.any fun i => match i with
  | .swap _ => true
  | _ => false

/-- The first SWAP of the pass queue that no pass precedes, with what stands before and behind it: an MWAIT it stands behind does not hold it
(R83; log entry 9). -/
def firstSwap : List QItem → Option (List QItem × Nat × List QItem)
  | .swap iss :: q => some ([], iss, q)
  | .wait n t k :: q => (firstSwap q).map fun x => (.wait n t k :: x.1, x.2)
  | _ => none

/-- The cycle from which the first SWAP of the pass queue takes effect without waiting for a pass, and the queue without it (R83): one issued
when streaming has ended but a pass is still held starts its wavefront in its cycle of issue (log entry 50). -/
def swapAt (a : ArrayState) : Option (Nat × List QItem) :=
  match firstSwap a.q with
  | some (before, iss, rest) =>
    let s0 := max iss a.streamEnd
    if rest.any fun i => match i with
      | .entry e => e.issued ≤ s0
      | _ => false
    then none
    else some ((match a.wave with
      | some w => max s0 (w + 1)
      | none => s0), before ++ rest)
  | none => none

/-- The passes that stream from cycle `s` on become unpredictable. -/
def spoil (s : Nat) (a : ArrayState) : ArrayState :=
  { a with run := a.run.map fun r => if s ≤ r.start then { r with bad := true } else r }

/-- A stationary load reaches the shadow at cycle `d` (R82, R84, R86): while the shadow is not free, the passes that use the block becoming
active, those that stream already among them, are unpredictable. -/
def landShadow (d : Nat) (b : Block) (a : ArrayState) : ArrayState :=
  if owned a || swapPending a then { a with shadow := { b with bad := true }, taint := true }
  else if d < a.shadowFree then
    spoil (a.shadowFree - 32) { a with shadow := { b with bad := true }, active := { a.active with bad := true } }
  else { a with shadow := b }

/-- What a row of a move instruction read in cycle `x` writes six cycles later (R64, R104, R148, R149). -/
def rowRead (sd x i : Nat) (c : Cpu) : Act → Option Act
  | .readTld reg addr w => some (.row (rowElems scratchBytes (viewMove sd (drawTag 4 x i) c) addr (reg * 1024) w) (some addr))
  | .readTst reg addr w => some (.scr (scrRow addr (rowElems vfileBytes (viewTile sd (drawTag 5 x i) c) (reg * 128) 0 w)))
  | .readArd reg row fit =>
    let es := rowElems accBytes (viewAcc sd (drawTag 6 x i) c) (row * 128) (reg * 1024) 32
    some (.row (if fit then es else es.mapIdx fun k e => { e with v := Config.free sd (drawTag 7 x i) k % 2 ^ 32 }) none)
  | _ => none

/-- One act falls due at cycle `x`; `prior` are the acts that fell due in the same cycle before it (R106). -/
def landOne (sd x i : Nat) (prior : List Act) (c : Cpu) (a : Act) : Cpu :=
  let keep (same : Act → Bool) : Bool := !(prior.any same) || pick sd (drawTag 1 x i) 0 2 = 1
  match a with
  | .sreg n v => if keep (fun b => match b with | .sreg m _ => m == n | _ => false)
      then { c with sregs := c.sregs.set n v } else c
  | .lc n v => if keep (fun b => match b with | .lc m _ => m == n | _ => false)
      then { c with lcs := c.lcs.set n v } else c
  | .kreg n v => if keep (fun b => match b with | .kreg m _ => m == n | _ => false)
      then { c with ks := c.ks.set n v } else c
  | .ovf v => { c with ovf := v || prior.any fun b => b == .ovf true }
  | .tile es =>
    let old := (prior.map fun b => match b with | .tile fs => fs | .row fs _ => fs | _ => []).flatten
    { c with vfile := writeElems vfileBytes c.vfile (settleElems sd (drawTag 2 x i) old es) }
  | .row es _ =>
    let old := (prior.map fun b => match b with | .tile fs => fs | .row fs _ => fs | _ => []).flatten
    { c with vfile := writeElems vfileBytes c.vfile (settleElems sd (drawTag 2 x i) old es) }
  | .acc es => { c with accs := writeElems accBytes c.accs es }
  | .scr es =>
    let old := (prior.map fun b => match b with | .scr fs => fs | _ => []).flatten
    { c with tstWas := c.tstWas ++ oldElems scratchBytes c.scratch es, scratch := writeElems scratchBytes c.scratch (settleElems sd (drawTag 3 x i) old es) }
  | .lead off bs => { c with leadMem := c.leadMem.writeWrap leadBytes off bs }
  | .shadow b => { c with array := landShadow x b c.array }
  | .readLds stats arr ks nb b0 =>
    let t := true
    let b1 := loadBlock (viewTile sd (drawTag 9 x i) c) stats t arr ks nb (groupK stats t) (groupN stats t)
    later (x + 2) (.shadow (mixBlocks sd (drawTag 11 x i) b0 b1)) c
  | a => match rowRead sd x i c a with
    | some b => later (x + 6) b c
    | none => c

/-- Every act that is a read of a row comes after the writes of its cycle. -/
def isRead : Act → Bool
  | .readTld _ _ _ => true
  | .readTst _ _ _ => true
  | .readArd _ _ _ => true
  | .readLds _ _ _ _ _ => true
  | _ => false

/-- Applies the acts of cycle `x` in turn. -/
def landAll (sd x : Nat) : Nat → List Act → Cpu → List Act → Cpu
  | _, _, c, [] => c
  | i, prior, c, a :: as => landAll sd x (i + 1) (a :: prior) (landOne sd x i prior c a) as

/-- Everything due by cycle `x` lands (R106). -/
def landDue (sd x : Nat) (c : Cpu) : Cpu :=
  let acts := (c.pend.filter fun p => p.due ≤ x).map (·.act)
  let c := { c with pend := c.pend.filter (fun p => x < p.due), moves := c.moves.filter fun m => x < m.1 }
  landAll sd x 0 [] c ((acts.filter fun a => !isRead a) ++ acts.filter isRead)

/-- The owner of a semaphore, codes 5-7 acting as 0 (R206). -/
def owner (c : Cpu) (n : Nat) : Nat :=
  let o := c.owners.getD n 0
  if o ≤ 4 then o else 0

/-- Cycles from a count's change to a waiter's wake (R190, R192). -/
def wakeDist (c : Cpu) (n w : Nat) : Nat :=
  if c.banked then (if c.owner n = w then 0 else engDist (c.owner n) w) else 0

/-- Cycles from registration to the wake when the condition already holds (R190, R192). -/
def readyDist (c : Cpu) (n w : Nat) : Nat := if c.banked then engDist (c.owner n) w else 4

/-- The cycle in which a wait satisfied at the end of the core's cycle wakes its engine, the latest update having been made at `made`: a wait
registered in this very cycle counts as one whose condition already holds (R190, R192, R194). -/
def wakeOf (c : Cpu) (made : Nat) (w : WaitRec) : Nat :=
  if w.reg = c.cycle then c.cycle + c.readyDist w.sem w.eng else max c.cycle (made + c.wakeDist w.sem w.eng)

/-- Tests engine `e`'s wait on semaphore `x.1`, whose last update was made at `x.2`; a satisfied one subtracts its target if it consumes (R195). -/
def testWait (x : Nat × Nat) (c : Cpu) (e : Nat) : Cpu :=
  match c.waits.find? fun w => w.eng == e && w.sem == x.1 && w.wakeAt.isNone && w.target ≤ c.sem x.1 with
  | some w =>
    { c with
      waits := c.waits.map fun v => if v == w then { v with wakeAt := some (c.wakeOf x.2 w) } else v
      sems := if w.consume then c.sems.set x.1 (BitVec.ofNat 16 (c.sem x.1 - w.target)) else c.sems }
  | none => c

/-- The waits registered on a semaphore in the fixed order of R195. -/
def testWaits (c : Cpu) (x : Nat × Nat) : Cpu :=
  [engArr, engVec, engSeq, engFsd].foldl (testWait x) c

/-- The evaluation at the end of the core's cycle: of every semaphore whose count changed in it or on which a wait was registered (R195). -/
def endCycle (c : Cpu) : Cpu := { c.evals.foldl testWaits c with evals := [] }

/-- An engine registers a wait in the core's cycle `x` (R195). -/
def registerWait (x eng n target : Nat) (consume : Bool) (c : Cpu) : Cpu :=
  { c with waits := c.waits ++ [⟨x, eng, n, target, consume, none⟩], evals := c.evals ++ [(n, 0)] }

/-- Removes engine `e`'s wait. -/
def dropWait (e : Nat) (c : Cpu) : Cpu := { c with waits := c.waits.filter fun w => w.eng != e }

/-- The updates `us` land on semaphore `n` in cycle `x`: SEM.SET, then every increment; its waits are evaluated at the end of the cycle (R189, R195). -/
def landSem (sd x : Nat) (us : List SemUpd) (c : Cpu) (n : Nat) : Cpu :=
  let mine := us.filter fun u => u.sem == n
  let sets := mine.filter (·.isSet)
  let v0 := match sets with
    | [] => c.sem n
    | s :: _ => ((sets[pick sd (drawTag 8 x 0) n sets.length]?).getD s).val
  let v := (mine.filter fun u => !u.isSet).foldl (fun a u => a + u.val) v0
  { c with sems := c.sems.set n (BitVec.ofNat 16 v), evals := c.evals ++ [(n, mine.foldl (fun a u => max a u.made) 0)] }

/-- Every semaphore update due by cycle `x` lands (R189). -/
def landSems (sd x : Nat) (c : Cpu) : Cpu :=
  let us := c.sups.filter fun u => u.land ≤ x
  let c := { c with sups := c.sups.filter fun u => x < u.land }
  ((us.map (·.sem)).eraseDups).foldl (landSem sd x us) c

/-- An update of semaphore `n` made by engine `e` at cycle `u`, held back until its data can be read in cycle `rd` (R190-R193). -/
def signal (u e n : Nat) (isSet : Bool) (val rd : Nat) (c : Cpu) : Cpu :=
  let d := if c.banked then engDist e (c.owner n) else 4
  if n < 48 then { c with sups := c.sups ++ [⟨max (u + d) rd, n, isSet, val, u + d⟩] } else c

/-- The array registers the MWAIT it has come to (R135, R196; log entry 9): the first MWAIT with no unstarted pass before it. -/
def armWait (x : Nat) (c : Cpu) : Cpu :=
  if c.waits.any (fun w => w.eng == engArr) then c
  else
    match c.array.q.filter fun i => match i with | .swap _ => false | _ => true with
    | .wait n t k :: _ => registerWait x engArr n t k c
    | _ => c

/-- A pending SWAP takes effect by cycle `x` without waiting for a pass (R83). -/
def runSwap (x : Nat) (c : Cpu) : Cpu :=
  match swapAt c.array with
  | some s => if s.1 < x then { c with array := exchange s.1 { c.array with q := s.2 } } else c
  | none => c

/-- The feeder queues are filled up to cycle `x` (R90). -/
def fillTo (sd x : Nat) (c : Cpu) : Cpu :=
  match c.array.run.getLast? with
  | some r => { c with array := { c.array with run := c.array.run.dropLast ++ [r.fill sd x (c.viewScr sd (drawTag 12 x 0))] } }
  | none => c

/-- The core's clock stands at cycle `x`: what was overwritten in an earlier cycle is forgotten. -/
def clockAt (x : Nat) (c : Cpu) : Cpu :=
  if c.cycle < x then { c with cycle := x, tstWas := [], dmaWas := [], leadWas := [] } else c

/-- What falls due in cycle `x`. -/
def settle (sd x : Nat) (c : Cpu) : Cpu :=
  landSems sd x (landDue sd x (fillTo sd x (runSwap x (clockAt x c))))

/-- The clock goes to cycle `x`: the cycle under way ends, if it is an earlier one. -/
def moveTo (sd x : Nat) (c : Cpu) : Cpu := settle sd x (if c.cycle < x then endCycle c else c)

/-- The least element of a list of cycles. -/
def minOf : List Nat → Option Nat
  | [] => none
  | x :: xs => match minOf xs with
    | some y => some (min x y)
    | none => some x

/-- The next cycle in which something falls due. -/
def nextDue (c : Cpu) : Option Nat :=
  minOf (c.pend.map (·.due) ++ c.sups.map (·.land) ++ (match swapAt c.array with
    | some s => [s.1 + 1]
    | none => []))

/-- The clock runs to cycle `x`, everything landing in its own cycle (R64). -/
def advance (sd x : Nat) : Nat → Cpu → Cpu
  | 0, c => moveTo sd x c
  | f + 1, c =>
    match c.nextDue with
    | some d => if d < x then advance sd x f (moveTo sd d c) else moveTo sd x c
    | none => moveTo sd x c

/-- `advance` with fuel for every event in flight and the row reads among them. -/
def runTo (sd x : Nat) (c : Cpu) : Cpu :=
  advance sd x (2 * (c.pend.length + c.sups.length + c.array.q.length) + 8) c

end Cpu

end Sys2Proof.Machine
end

