-- ==== Sys2Proof/Machine/Bundle.lean ====
section
/-! DEFINITION. The slot operations of a bundle and their decoding (chapter 04: R101-R103, R110, R128, R137, R147).
Register and semaphore numbers are kept as the numbers the fields hold. -/

namespace Sys2Proof.Machine

/-- The scalar operations of R111. -/
inductive AluFn where
  | add | sub | and | or | xor | shl | shr | sra | mul | min | max
  deriving DecidableEq, Repr

/-- The second operand of a scalar operation or comparison: a register or a sign-extended immediate. -/
inductive Src where
  | reg (n : Nat)
  | imm (v : Int)
  deriving DecidableEq, Repr

/-- FP64 operations on registers (R61). -/
inductive FpFn where
  | add | sub | mul | fma | div | sqrt
  deriving DecidableEq, Repr

/-- Conversions of R126. -/
inductive CvtFn where
  | dl | ld | df | fd
  deriving DecidableEq, Repr

/-- Control-slot operations (R110). -/
inductive CtlOp where
  | nop
  | undef
  /-- an undefined opcode of the range of the lead processor, 0x80-0x9A (R107, R110) -/
  | undefLead
  | alu (f : AluFn) (sd sa : Nat) (b : Src)
  | li (sd : Nat) (v : Int)
  | lih (sd q v : Nat)
  | lcSet (cn v : Nat)
  | lcAdd (cn : Nat) (v : Int)
  | lcMov (cn sa : Nat)
  | movC (sd cn : Nat)
  | cmp (kd cond sa : Nat) (b : Src)
  | kop (kd ka kb fn : Nat)
  | br (target : Nat)
  | brK (kn : Nat) (sense : Bool) (target : Nat)
  | brC (cn target : Nat)
  | semInc (mn v : Nat)
  | semSet (mn v : Nat)
  | semW (mn : Nat) (consume : Bool) (target : Nat)
  | waitT (sa : Nat)
  | timeRd (sd : Nat)
  | mark (sa id : Nat)
  | dmai (kd sa : Nat)
  | scaleDn (sd sa sh : Nat)
  | flagK (kd : Nat)
  | flagClr
  | stop
  | load (log2 sd sa : Nat) (imm : Int)
  | store (log2 sb sa : Nat) (imm : Int)
  | fp (f : FpFn) (sd sa sb sc : Nat)
  | fcmp (kd cond sa sb : Nat)
  | cvt (f : CvtFn) (sd sa : Nat)
  | brI (sa : Nat)
  | call (target : Nat)
  | ret
  deriving DecidableEq, Repr

/-- Matrix-slot operations (R128). -/
inductive MatOp where
  | nop
  | undef
  | tcfg (tn sa : Nat) (shared : Bool)
  | release (tn : Nat)
  | lds (tg g kslice nblock arr : Nat) (transposed : Bool)
  | swap
  | mma (sa sb sem arr : Nat) (transposed : Bool)
  | mwait (mn : Nat) (consume : Bool) (target : Nat)
  deriving DecidableEq, Repr

/-- The functions of R140. -/
inductive VFn where
  | add | sub | mul | fma | max | min | abs | neg | exp | log | recip | rsqrt | tanh | mov
  deriving DecidableEq, Repr

/-- The reductions of R141. -/
inductive RFn where
  | sum | max | ssq | dot
  deriving DecidableEq, Repr

/-- Vector-slot operations (R137). -/
inductive VecOp where
  | nop
  | undef
  | vop (f : VFn) (td a b cr : Nat)
  | vred (f : RFn) (td a b cr s : Nat)
  | vredS (f : RFn) (sd a b cr : Nat)
  | cvt (td a ss cr : Nat) (g : Bool)
  | rng (td ss cr : Nat)
  | updc (tw a tq cr : Nat)
  | vsig (mn v : Nat)
  | vwait (mn : Nat) (consume : Bool) (target : Nat)
  deriving DecidableEq, Repr

/-- Move-slot operations (R147). -/
inductive MovOp where
  | nop
  | undef
  | tld (tn sa : Nat)
  | tst (tn sa : Nat)
  | ard (tn aa row0 n cr : Nat)
  deriving DecidableEq, Repr

/-- A bundle (R101). -/
structure Bundle where
  ctl : CtlOp
  mat : MatOp
  vec : VecOp
  mov : MovOp
  deriving DecidableEq, Repr

/-- Four no-ops (R40). -/
def Bundle.nop : Bundle := ⟨.nop, .nop, .nop, .nop⟩

/-- The scalar operation with opcode `o` mod 16 (R110). -/
def aluOf : Nat → AluFn
  | 1 => .add | 2 => .sub | 3 => .and | 4 => .or | 5 => .xor | 6 => .shl | 7 => .shr | 8 => .sra | 9 => .mul
  | 10 => .min | _ => .max

/-- The vector function with opcode `o` (R140). -/
def vfnOf : Nat → VFn
  | 1 => .add | 2 => .sub | 3 => .mul | 4 => .fma | 5 => .max | 6 => .min | 7 => .abs | 8 => .neg | 9 => .exp
  | 10 => .log | 11 => .recip | 12 => .rsqrt | 13 => .tanh | _ => .mov

/-- The reduction coded by the low two bits of an opcode (R137). -/
def rfnOf : Nat → RFn
  | 0 => .sum | 1 => .max | 2 => .ssq | _ => .dot

/-- Decodes the control slot (R110). -/
def decodeCtl (w : Nat) : CtlOp :=
  let op := bits w 31 24
  let d := bits w 23 19
  let a := bits w 18 14
  let b := bits w 13 9
  let i14 := signedOf 14 w
  if op = 0 then .nop
  else if 0x01 ≤ op ∧ op ≤ 0x0B then .alu (aluOf op) d a (.reg b)
  else if 0x11 ≤ op ∧ op ≤ 0x1B then .alu (aluOf (op - 0x10)) d a (.imm i14)
  else if op = 0x20 then .li d (signedOf 19 w)
  else if op = 0x21 then .lih d (bits w 17 16) (bits w 15 0)
  else if op = 0x24 then .lcSet (bits w 23 20) (bits w 19 0)
  else if op = 0x25 then .lcAdd (bits w 23 20) (signedOf 20 w)
  else if op = 0x26 then .lcMov (bits w 23 20) a
  else if op = 0x27 then .movC d (bits w 18 15)
  else if op = 0x28 then .cmp (bits w 23 21) (bits w 20 17) (bits w 16 12) (.reg (bits w 11 7))
  else if op = 0x29 then .cmp (bits w 23 21) (bits w 20 17) (bits w 16 12) (.imm (signedOf 12 w))
  else if op = 0x2A then .kop (bits w 23 21) (bits w 20 18) (bits w 17 15) (bits w 14 12)
  else if op = 0x30 then .br (bits w 13 0)
  else if op = 0x31 then .brK (bits w 23 21) (bit w 20) (bits w 13 0)
  else if op = 0x32 then .brC (bits w 23 20) (bits w 13 0)
  else if op = 0x38 then .semInc (bits w 23 18) (bits w 15 0)
  else if op = 0x39 then .semSet (bits w 23 18) (bits w 15 0)
  else if op = 0x3A then .semW (bits w 23 18) (bit w 16) (bits w 15 0)
  else if op = 0x40 then .waitT a
  else if op = 0x41 then .timeRd d
  else if op = 0x44 then .mark d (bits w 15 0)
  else if op = 0x48 then .dmai (bits w 23 21) a
  else if op = 0x4C then .scaleDn d a (bits w 3 0)
  else if op = 0x4D then .flagK (bits w 23 21)
  else if op = 0x4E then .flagClr
  else if op = 0x4F then .stop
  else if 0x80 ≤ op ∧ op ≤ 0x83 then .load (op - 0x80) d a i14
  else if 0x84 ≤ op ∧ op ≤ 0x87 then .store (op - 0x84) d a i14
  else if op = 0x88 then .fp .add d a b 0
  else if op = 0x89 then .fp .sub d a b 0
  else if op = 0x8A then .fp .mul d a b 0
  else if op = 0x8B then .fp .fma d a b (bits w 8 4)
  else if op = 0x8C then .fp .div d a b 0
  else if op = 0x8D then .fp .sqrt d a 0 0
  else if op = 0x8E then .fcmp (bits w 23 21) (bits w 20 17) (bits w 16 12) (bits w 11 7)
  else if op = 0x8F then .cvt .dl d a
  else if op = 0x90 then .cvt .ld d a
  else if op = 0x91 then .cvt .df d a
  else if op = 0x92 then .cvt .fd d a
  else if op = 0x98 then .brI a
  else if op = 0x99 then .call (bits w 13 0)
  else if op = 0x9A then .ret
  else if 0x93 ≤ op ∧ op ≤ 0x97 then .undefLead
  else .undef

/-- Decodes the matrix slot (R128). -/
def decodeMat (w : Nat) : MatOp :=
  let op := bits w 31 24
  if op = 0 then .nop
  else if op = 0x01 then
    (if bit w 13 then .release (bits w 23 20) else .tcfg (bits w 23 20) (bits w 19 15) (bit w 14))
  else if op = 0x08 ∨ op = 0x09 then
    .lds (bits w 23 20) (bits w 19 18 + 1) (bits w 17 13) (bits w 12 10) (bits w 9 8) (op = 0x09)
  else if op = 0x0C then .swap
  else if op = 0x10 ∨ op = 0x11 then .mma (bits w 23 19) (bits w 18 14) (bits w 13 8) (bits w 7 6) (op = 0x11)
  else if op = 0x18 then .mwait (bits w 23 18) (bit w 16) (bits w 15 0)
  else .undef

/-- Decodes the vector slot (R137). -/
def decodeVec (w : Nat) : VecOp :=
  let op := bits w 31 24
  if op = 0 then .nop
  else if 0x01 ≤ op ∧ op ≤ 0x0E then .vop (vfnOf op) (bits w 23 20) (bits w 19 13) (bits w 12 6) (bits w 5 2)
  else if 0x10 ≤ op ∧ op ≤ 0x13 then
    .vred (rfnOf (op - 0x10)) (bits w 23 20) (bits w 19 13) (bits w 12 6) (bits w 5 2) (bits w 1 0)
  else if 0x14 ≤ op ∧ op ≤ 0x17 then .vredS (rfnOf (op - 0x14)) (bits w 23 19) (bits w 18 12) (bits w 11 5) (bits w 4 1)
  else if op = 0x20 then .cvt (bits w 23 20) (bits w 19 13) (bits w 12 8) (bits w 5 2) (bit w 1)
  else if op = 0x24 then .rng (bits w 23 20) (bits w 12 8) (bits w 5 2)
  else if op = 0x28 then .updc (bits w 23 20) (bits w 19 13) (bits w 12 9) (bits w 5 2)
  else if op = 0x30 then .vsig (bits w 23 18) (bits w 15 0)
  else if op = 0x31 then .vwait (bits w 23 18) (bit w 16) (bits w 15 0)
  else .undef

/-- Decodes the move slot (R147). -/
def decodeMov (w : Nat) : MovOp :=
  let op := bits w 31 24
  if op = 0 then .nop
  else if op = 0x01 then .tld (bits w 23 20) (bits w 19 15)
  else if op = 0x02 then .tst (bits w 23 20) (bits w 19 15)
  else if op = 0x03 then .ard (bits w 23 20) (bits w 19 14) (bits w 13 9) (bits w 8 4 + 1) (bits w 3 0)
  else .undef

/-- Decodes the 128 bits of a bundle (R101). -/
def decodeBundle (w : Nat) : Bundle :=
  ⟨decodeCtl (bits w 127 96), decodeMat (bits w 95 64), decodeVec (bits w 63 32), decodeMov (bits w 31 0)⟩

end Sys2Proof.Machine
end

