-- ==== Sys2Proof/Machine/Flags.lean ====
section
/-! DEFINITION. Scalar results, comparators and the other one-word computations of the control slot (R61, R111, R114, R115, R122,
R126). -/

namespace Sys2Proof.Machine

/-- Scalar arithmetic (R111). -/
def aluVal (f : AluFn) (a b : Word) : Word :=
  match f with
  | .add => a + b
  | .sub => a - b
  | .and => a &&& b
  | .or => a ||| b
  | .xor => a ^^^ b
  | .shl => a <<< (b.toNat % 64)
  | .shr => a >>> (b.toNat % 64)
  | .sra => a.sshiftRight (b.toNat % 64)
  | .mul => a * b
  | .min => if a.toInt ≤ b.toInt then a else b
  | .max => if a.toInt ≤ b.toInt then b else a

/-- The condition codes of R114. -/
def condDefined (cond : Nat) : Bool := cond ≤ 5 || (8 ≤ cond && cond ≤ 13)

/-- The floating-point conditions of R114 on exact values. -/
def fcondHolds (cond : Nat) (a b : Value) : Bool :=
  match cond with
  | 8 => a.eqv b
  | 9 => !a.eqv b
  | 10 => a.lt b
  | 11 => !a.isNan && !b.isNan && !a.lt b
  | 12 => a.isNan || b.isNan
  | _ => !a.isFin

/-- The conditions of R114 on two words; the FP32 conditions read bits [31:0]. -/
def condHolds (cond : Nat) (a b : Word) : Bool :=
  match cond with
  | 0 => a == b
  | 1 => a != b
  | 2 => a.toInt < b.toInt
  | 3 => b.toInt ≤ a.toInt
  | 4 => a.toNat < b.toNat
  | 5 => b.toNat ≤ a.toNat
  | _ => fcondHolds cond (ofF32 (a.setWidth 32)) (ofF32 (b.setWidth 32))

/-- The second operand of CMPI: imm12 as an integer, or converted exactly to FP32 (R114). -/
def immOperand (cond : Nat) (v : Int) : Word :=
  if cond < 8 then BitVec.ofInt 64 v else (toF32 (Value.ofInt v)).setWidth 64

/-- KOP (R115). -/
def kopVal (fn : Nat) (a b : Bool) : Bool :=
  match fn with
  | 0 => a && b
  | 1 => a || b
  | 2 => a != b
  | 3 => a && !b
  | 4 => !a
  | 5 => false
  | _ => true

/-- SCALE.DN on an FP32 pattern (R122). -/
def scaleDnVal (a : Word) (sh : Nat) : Word :=
  let w := a.toNat % 2 ^ 32
  let e := w / 2 ^ 23
  let k := if sh = 0 then 1 else sh
  if e = 0 ∨ 255 ≤ e then BitVec.ofNat 64 w
  else if e ≤ k then BitVec.ofNat 64 0x00800000
  else BitVec.ofNat 64 (w - k * 2 ^ 23)

/-- A quiet NaN of FP64 whose sign and payload the manual leaves open (R61; log entry 10). -/
def freeNan64 (sd p : Nat) : Word :=
  BitVec.ofNat 64 (0x7FF8000000000000 + Config.free sd p 0 % 2 ^ 51 + (Config.free sd p 1 % 2) * 2 ^ 63)

/-- A quiet NaN of FP32 whose sign and payload the manual leaves open (R126; log entry 10). -/
def freeNan32 (sd p : Nat) : Word :=
  BitVec.ofNat 64 (0x7FC00000 + Config.free sd p 0 % 2 ^ 22 + (Config.free sd p 1 % 2) * 2 ^ 31)

/-- A result in FP64, a NaN being free (R61). -/
def fp64Out (sd p : Nat) (code : Nat) : Word :=
  if (fp64.decode code).isNan then freeNan64 sd p else BitVec.ofNat 64 code

/-- FP64 arithmetic (R61). -/
def fpVal (sd p : Nat) (f : FpFn) (a b c : Word) : Word :=
  let x := ofF64 a
  let y := ofF64 b
  fp64Out sd p (match f with
    | .add => fp64.rn (x.add y)
    | .sub => fp64.rn (x.add y.neg)
    | .mul => fp64.rn (x.mul y)
    | .fma => fp64.rn ((x.mul y).add (ofF64 c))
    | .div => fp64.div x y
    | .sqrt => fp64.sqrt x)

/-- Latency of an FP64 operation (R64). -/
def fpLatency : FpFn → Nat
  | .div => 24
  | .sqrt => 24
  | _ => 4

/-- The conversions of R126. -/
def cvtVal (sd p : Nat) (f : CvtFn) (a : Word) : Word :=
  match f with
  | .dl => toF64 (Value.ofInt a.toInt)
  | .ld => toI64 (ofF64 a)
  | .df => fp64Out sd p (fp64.rn (ofF32 (a.setWidth 32)))
  | .fd =>
    let x := ofF64 a
    if x.isNan then freeNan32 sd p else BitVec.ofNat 64 (fp32.rn x)

/-- Loop-counter targets and bundle addresses wrap at 16,384 (R40). -/
def bundleAddr (n : Nat) : Nat := n % 16384

end Sys2Proof.Machine
end

