-- ==== Sys2Proof/Machine/Philox.lean ====
section
/-! DEFINITION. The counter-based random bits of R162 and R163. -/

namespace Sys2Proof.Machine

/-- Counter and key of the generator. -/
structure Philox where
  c0 : W32
  c1 : W32
  c2 : W32
  c3 : W32
  k0 : W32
  k1 : W32
  deriving DecidableEq, Repr

namespace Philox

/-- One round on the counter (R162). -/
def round (p : Philox) : Philox :=
  let p0 := 0xD2511F53 * p.c0.toNat
  let p1 := 0xCD9E8D57 * p.c2.toNat
  { p with
    c0 := BitVec.ofNat 32 (p1 / 2 ^ 32) ^^^ p.c1 ^^^ p.k0
    c1 := BitVec.ofNat 32 p1
    c2 := BitVec.ofNat 32 (p0 / 2 ^ 32) ^^^ p.c3 ^^^ p.k1
    c3 := BitVec.ofNat 32 p0 }

/-- The key step between rounds (R162). -/
def bump (p : Philox) : Philox := { p with k0 := p.k0 + 0x9E3779B9, k1 := p.k1 + 0xBB67AE85 }

/-- `n` further rounds, each after a key step. -/
def rounds : Nat → Philox → Philox
  | 0, p => p
  | n + 1, p => rounds n (round (bump p))

/-- Philox-4×32-10 (R162). -/
def run (p : Philox) : Philox := rounds 9 (round p)

/-- Output word `i` mod 4. -/
def word (p : Philox) (i : Nat) : W32 :=
  match i % 4 with
  | 0 => p.c0
  | 1 => p.c1
  | 2 => p.c2
  | _ => p.c3

end Philox

/-- The random word for logical element position `p` (R163). -/
def randWord (seed : Word) (step stream : W32) (p : Word) : W32 :=
  let q := p.toNat / 4
  Philox.word (Philox.run
    { c0 := BitVec.ofNat 32 q, c1 := BitVec.ofNat 32 (q / 2 ^ 32), c2 := step, c3 := stream
      k0 := BitVec.ofNat 32 seed.toNat, k1 := BitVec.ofNat 32 (seed.toNat / 2 ^ 32) }) p.toNat

end Sys2Proof.Machine
end

