-- ==== Sys2Proof/Machine/VecFns.lean ====
section
/-! DEFINITION. The vector functions whose bits R170 leaves open within a bound: the exact result enclosed in fixed point far below one unit of
the last place, and a free choice among the FP32 values within the bound of it (log entry 2). -/

namespace Sys2Proof.Machine

/-- Fraction bits of the fixed point. -/
def fixBits : Nat := 320

/-- One, and ln 2, in fixed point. -/
def fixOne : Nat := 2 ^ fixBits
def fixLn2 : Nat :=
  0xb17217f7d1cf79abc9e3b39803f2f6af40f343267298b62d8a0d175b8baafa2be7b876206debac98

/-- The sum of `f` further terms of the exponential series of `r`, the next being `t` and its divisor `k`. -/
def expTerms (r : Nat) : Nat → Nat → Nat → Nat
  | 0, _, _ => 0
  | f + 1, k, t => t + expTerms r f (k + 1) (t * r / fixOne / k)

/-- e to the power of `x`, for `x` in fixed point, as a mantissa in fixed point and a power of two. -/
def expFix (x : Int) : Nat × Int := (expTerms (x % fixLn2).toNat 84 1 fixOne, x / fixLn2)

/-- The sum of `f` further terms t/k + t z²/(k + 2) + ... of the series of the inverse hyperbolic tangent. -/
def atanhTerms (zz : Nat) : Nat → Nat → Nat → Nat
  | 0, _, _ => 0
  | f + 1, k, t => t / k + atanhTerms zz f (k + 2) (t * zz / fixOne)

/-- The logarithm of a number from 1 to 2 in fixed point. -/
def lnFix (y : Nat) : Nat :=
  let z := (y - fixOne) * fixOne / (y + fixOne)
  2 * atanhTerms (z * z / fixOne) 110 1 z

/-- A finite magnitude m × 2^e in fixed point. -/
def toFix (m : Nat) (e : Int) : Nat := let p := pow2q (e + fixBits); m * p.1 / p.2

/-- e^a for a finite operand of moderate size. -/
def exactExp (n : Bool) (m : Nat) (e : Int) : Value :=
  let r := expFix (Value.sm n (toFix m e))
  .fin false r.1 (r.2 - fixBits)

/-- ln a for a positive finite operand. -/
def exactLog (m : Nat) (e : Int) : Value :=
  let l := Nat.log2 m
  let y : Nat := m * 2 ^ fixBits / 2 ^ l
  let v : Int := (e + l) * fixLn2 + lnFix y
  .fin (decide (v < 0)) v.natAbs (-fixBits)

/-- tanh a for a finite operand other than zero: just below 1 in magnitude from 64 on, and just below the operand under 2^-40. -/
def exactTanh (n : Bool) (m : Nat) (e : Int) : Value :=
  let l : Int := e + Nat.log2 m
  if 6 ≤ l then .fin n (2 ^ 200 - 1) (-200)
  else if l < -40 then .fin n (m * 2 ^ 400 - 1) (e - 400)
  else
    let r := expFix (2 * toFix m e)
    let v := r.1 * 2 ^ r.2.toNat
    .fin n ((v - fixOne) * fixOne / (v + fixOne)) (-fixBits)

/-- 1/a for a finite operand other than zero. -/
def exactRecip (n : Bool) (m : Nat) (e : Int) : Value := .fin n (2 ^ 600 / m) (-600 - e)

/-- 1/√a for a positive finite operand. -/
def exactRsqrt (m : Nat) (e : Int) : Value :=
  let p := sqrtPrep fp32 m e
  .fin false (2 ^ 900 / isqrt (p.1 * 2 ^ 600)) (-600 - p.2 / 2)

/-- The magnitude codes of FP32 within `k` units of the last place of the exact m × 2^e; the code of infinity stands for the value that follows
the largest finite one (R170). -/
def within (k m : Nat) (e : Int) : List Nat :=
  let f := fp32.roundMag (.toward false) m 1 e
  let bound : Value := .fin false k (max (Nat.log2 m + e) (-126) - 23)
  let mag (c : Nat) : Value := if c = fp32.maxCode + 1 then .fin false 1 128 else fp32.decode c
  (List.range 9).filterMap fun j =>
    let c := f + j - 4
    if f + j < 4 || fp32.maxCode + 1 < c || bound.lt (((mag c).add (.fin true m e)).abs) then none else some c

/-- What the implementation gives for function `fn` of operand `a`, the exact result being `x` and the bound `k` units of the last place: one
of the values within it (R170; log entry 2). -/
def nearExact (fn k : Nat) (a : W32) (x : Value) : Value :=
  match x with
  | .fin n m e =>
    match within k m e with
    | [] => .inf n
    | c :: cs => fp32.decode (fp32.signed n ((c :: cs).getD ((Config.vecFn fn a).toNat % (cs.length + 1)) c))
  | _ => x

end Sys2Proof.Machine
end

