-- ==== Sys2Proof/Machine/Operands.lean ====
section
/-! DEFINITION. Operand forms of a core: early reads of registers (R65), vector sources, slices and destinations (R138, R139), the vector functions (R140, R170) and the conversions (R143, R158-R161). -/

namespace Sys2Proof.Machine

namespace Cpu

/-- Purposes of the draws of one bundle, beyond those of the clock. -/
def issueTag (c : Cpu) (k : Nat) : Nat := drawTag (16 + k % 48) c.cycle (k / 48)

/-- A choice between the value held and the values in flight (R65). -/
def early {α : Type} (sd p : Nat) (cur : α) (flight : List α) : α :=
  ((cur :: flight)[pick sd p 0 (flight.length + 1)]?).getD cur

/-- A scalar register as the bundle reads it (R65, R104). -/
def rdS (sd k : Nat) (c : Cpu) (n : Nat) : Word :=
  early sd (c.issueTag (64 * k + n)) (c.sreg n)
    (c.pend.filterMap fun p => match p.act with | .sreg m v => if m = n then some v else none | _ => none)

/-- A loop counter as the bundle reads it. -/
def rdC (sd k : Nat) (c : Cpu) (n : Nat) : W32 :=
  early sd (c.issueTag (64 * k + 32 + n)) (c.lcs.getD n 0)
    (c.pend.filterMap fun p => match p.act with | .lc m v => if m = n then some v else none | _ => none)

/-- A comparator as the bundle reads it. -/
def rdK (sd k : Nat) (c : Cpu) (n : Nat) : Bool :=
  early sd (c.issueTag (64 * k + 48 + n)) (c.ks.getD n false)
    (c.pend.filterMap fun p => match p.act with | .kreg m v => if m = n then some v else none | _ => none)

/-- OVF as the bundle reads it: a CVT or FLAG.CLR in flight may show or not (R65, R123). -/
def rdOvf (sd k : Nat) (c : Cpu) : Bool :=
  early sd (c.issueTag (64 * k + 56)) c.ovf (c.pend.filterMap fun p => match p.act with | .ovf v => some v | _ => none)

end Cpu

/-- Vector source operands (R138). -/
inductive VSrc where
  | acc (n : Nat)
  | tile (n : Nat)
  | scal (n : Nat)
  | reserved
  deriving DecidableEq, Repr

/-- Decodes a source operand code (R138). -/
def vsrcOf (code : Nat) : VSrc :=
  if code ≤ 63 then .acc code
  else if code ≤ 79 then .tile (code - 64)
  else if code < 80 then .reserved
  else if code ≤ 111 then .scal (code - 80)
  else .reserved

/-- An undefined operand in field a: a reserved code or a scalar (R138). -/
def badA (code : Nat) : Bool := 80 ≤ code

/-- An undefined operand in field b (R138). -/
def badB (code : Nat) : Bool := 112 ≤ code

namespace Cpu

/-- An operand is an accumulator or an FP32 tile (R139). -/
def wide (c : Cpu) : VSrc → Bool
  | .acc _ => true
  | .tile n => (c.tile n).fmt = 0
  | _ => false

/-- Elements of a slice (R139). -/
def sliceLen (c : Cpu) (srcs : List VSrc) : Nat := if srcs.any c.wide then 64 else 128

/-- The `E` elements of slice `i` of a source, as an instruction's operand `k` reads them (R65, R139). -/
def readSrc (sd k : Nat) (c : Cpu) (E i : Nat) (src : VSrc) : List Value :=
  match src with
  | .acc n =>
    let m := c.viewAcc sd (c.issueTag (64 * k + 60))
    (List.range E).map fun j => fp32.decode
      (m.getBits accBytes ((n * 4096 + ((2 * i + j / 32) % 32) * 128 + (j % 32) * 4) * 8) 32)
  | .tile n =>
    let m := c.viewTile sd (c.issueTag (64 * k + 61))
    let t := c.tile n
    (List.range E).map fun j => t.elem m (E * i + j)
  | .scal n =>
    let x := ofF32 ((rdS sd k c n).setWidth 32)
    (List.range E).map fun _ => x
  | .reserved => (List.range E).map fun _ => .zero

end Cpu

/-- The first FP32 value whose exponential passes the FP32 range, and the first below whose exponential is under 2^-149 (R170). -/
def expHigh : Value := fp32.decode 0x42B17218
def expLow : Value := fp32.decode 0xC2CE8ED0

/-- The functions of R140 in FP32, with the special cases of R170. -/
def vfnVal (f : VFn) (a b d : Value) : Value :=
  let r (x : Value) : Value := ofF32 (toF32 x)
  match f with
  | .add => r (a.add b)
  | .sub => r (a.add b.neg)
  | .mul => r (a.mul b)
  | .fma => r ((a.mul b).add d)
  | .max => r (a.max b)
  | .min => r (a.min b)
  | .abs => r a.abs
  | .neg => r a.neg
  | .mov => a
  | .exp =>
    match a with
    | .nan => .nan
    | .inf n => if n then .zero else .inf false
    | .fin n m e =>
      if !a.lt expHigh then .inf false
      else if !expLow.lt a then .zero
      else nearExact 9 2 (toF32 a) (exactExp n m e)
  | .log =>
    match a with
    | .nan => .nan
    | .inf n => if n then .nan else .inf false
    | .fin n m e =>
      if m = 0 then .inf true
      else if n then .nan
      else if a.eqv Value.one then .zero
      else nearExact 10 2 (toF32 a) (exactLog m e)
  | .tanh =>
    match a with
    | .nan => .nan
    | .inf n => .fin n 1 0
    | .fin n m e => if m = 0 then a else nearExact 13 2 (toF32 a) (exactTanh n m e)
  | .recip =>
    match a with
    | .nan => .nan
    | .inf n => .fin n 0 0
    | .fin n m e =>
      if m = 0 then .inf n
      else nearExact 11 1 (toF32 a) (exactRecip n m e)
  | .rsqrt =>
    match a with
    | .nan => .nan
    | .inf n => if n then .nan else .zero
    | .fin n m e =>
      if m = 0 then .inf n
      else if n then .nan
      else nearExact 12 1 (toF32 a) (exactRsqrt m e)

/-- What a vector instruction writes: elements, and whether a gradient conversion overflowed (R160, R161). -/
structure VOut where
  elems : List Elem
  ovf : Bool
  deriving DecidableEq, Repr

/-- Elements of slice positions `p` to `p + n - 1` of a tile with the given codes. -/
def TileCfg.put (t : TileCfg) (p : Nat) (codes : List Nat) : List Elem :=
  codes.mapIdx fun k v => ⟨t.elemPos (p + k), t.width, v⟩

/-- Scale bytes of the blocks that lie whole in slice positions `p` to `p + n - 1`. -/
def TileCfg.wholeBlocks (t : TileCfg) (p n : Nat) : List Nat :=
  let l := (List.range (min n t.count)).map fun k => t.scaleIdx (p + k)
  let len (s : Nat) : Nat := min (blockSize t.block) (t.cols - (s % max 1 t.rowBlocks) * blockSize t.block)
  if fmtScaled t.fmt then l.eraseDups.filter fun s => (l.filter (· == s)).length == len s else []

/-- Free values for the elements a misused shape names: codes, and the scales of whole blocks (R132, R156). -/
def TileCfg.putFree (t : TileCfg) (sd tag p n : Nat) : List Elem :=
  ((t.wholeBlocks p n).map fun s => ⟨t.scalePos s, 8, Config.free sd tag (1000 + s) % 256⟩) ++
    t.put p ((List.range n).map fun k => Config.free sd tag k % 2 ^ t.width) ++ t.tails p n

/-- The scale bytes beyond the blocks of a tile, written as 0 (R156). -/
def TileCfg.scaleTail (t : TileCfg) : List Elem :=
  let n := t.rows * t.rowBlocks
  if n % 128 = 0 then [] else [⟨t.scalePos n, (128 - n % 128) * 8, 0⟩]

/-- One block of a block-scaled destination (R161): `mode k` rounds element `k`. -/
def blockOut (t : TileCfg) (p : Nat) (mode : Nat → RMode) (xs : List Value) : List Elem :=
  let f := fmtOf t.fmt
  let sc := blockScale f xs
  ⟨t.scalePos (t.scaleIdx p), 8, sc⟩ :: t.put p (xs.mapIdx fun k x => blockElem f (mode k) sc x)

/-- The conversion of a slice into a tile's format (R158-R161): `mode k` rounds element `k`; `g` is a gradient conversion. -/
def convertOut (t : TileCfg) (p : Nat) (g : Bool) (mode : Nat → RMode) (xs : List Value) : VOut :=
  let f := fmtOf t.fmt
  if fmtScaled t.fmt then
    let b := blockSize t.block
    let blocks := (List.range (xs.length / b)).map fun q => (q * b, (xs.drop (q * b)).take b)
    { elems := (blocks.map fun q => blockOut t (p + q.1) (fun k => mode (q.1 + k)) q.2).flatten ++ t.scaleTail ++ t.tails p xs.length
      ovf := g && xs.any fun x => !x.isFin }
  else
    let cs := xs.mapIdx fun k x => f.conv (mode k) g x
    { elems := t.put p (cs.map (·.code)) ++ t.tails p xs.length, ovf := g && cs.any (·.special) }

/-- A block-scaled destination of CVT or VOP holds whole blocks in each slice (R143, R156). -/
def blocksFit (t : TileCfg) (E : Nat) : Bool := !fmtScaled t.fmt || (t.cols % blockSize t.block == 0 && blockSize t.block ≤ E)

/-- Every tile that the operands name holds a slice: its elements are at least `E`, and its format is not reserved (R132; log entry 47). -/
def Cpu.slicesFit (c : Cpu) (E : Nat) (srcs : List VSrc) : Bool := srcs.all fun x => match x with
  | .tile n => E ≤ (c.tile n).count
  | _ => true

end Sys2Proof.Machine
end

