-- ==== Sys2Proof/Machine/ArrayOps.lean ====
section
/-! DEFINITION. The passes of the matrix array: their arithmetic (R76), their start and their commit (R77-R80, R85, R92-R95), stopping and restart (R96-R98). -/

namespace Sys2Proof.Machine

/-- The exact sum of the products of a logical row (R76); a row that holds no element of the K slice has none. -/
def rowSum : List Value → Value
  | [] => .zero
  | p :: ps => ps.foldl Value.add p

/-- The partial sum of one output element through `n` logical rows from row `j` on (R76): `qs` what the streaming row has put into the feeder
queues, `ws` the stationary column. -/
def partialSum (arr eper : Nat) (qs : List (List Value)) : Nat → Nat → List Value → Value → Value
  | 0, _, _, acc => acc
  | n + 1, j, ws, acc =>
    let xs := qs.getD (feedQueue arr j) []
    partialSum arr eper qs n (j + 1) (ws.drop eper)
      (if xs.isEmpty then acc else fp32.decode (fp32.rn (acc.add (rowSum (List.zipWith Value.mul xs (ws.take eper))))))

/-- Accumulator element number of output (row, column) (R77). -/
def accIndex (e : Entry) (row col : Nat) : Nat :=
  ((e.dest + (col / 32) * ceilDiv e.m 32 + row / 32) % 64) * 1024 + (row % 32) * 32 + col % 32

/-- Accumulator tiles written more than once by wrapping (R79). -/
def wrappedTiles (e : Entry) : List Nat :=
  let t := ceilDiv e.n 32 * ceilDiv e.m 32
  if t ≤ 64 then [] else ((List.range t).filter fun i => 64 ≤ i || i + 64 < t).map fun i => (e.dest + i) % 64

/-- Shape misuse of the whole instruction (R75, R132). -/
def Entry.misused (e : Entry) : Bool :=
  !arrayFmt e.fmt || !groupFits e.stats ||
    (match e.stats with
     | s :: _ => fmtE s.fmt != fmtE e.fmt
     | [] => true) ||
    groupK e.stats e.statT < e.k || groupN e.stats e.statT < e.n

/-- The partial sums of a pass by accumulator element, its rows having come through the feeder queues (R74, R76, R90). -/
def PassRun.sums (r : PassRun) : List (Nat × Nat) :=
  let e := r.entry
  let f := foldOf e
  let nb := (r.idx / f.slices) % f.blocks
  let rg := r.idx / (f.slices * f.blocks)
  let cols := min f.c (e.n - nb * f.c)
  (r.rows.zipIdx.map fun x =>
    let qs := feedRow e.arr (fmtE e.fmt) x.1
    (List.range cols).map fun j =>
      let ws := (List.range x.1.length).map fun q => (r.block.vals.getD q []).getD j .zero
      (accIndex e (rg * f.groupRows + x.2) (nb * f.c + j), fp32.rn (partialSum e.arr (fmtE e.fmt) qs (arrRows e.arr) 0 ws .zero))).flatten

/-- Cycles the fold logic needs for a block of a transposed or plain read (R85, R98). -/
def foldCycles (e : Entry) : Nat :=
  if e.statT && halfRate ((e.stats.getD 0 ⟨0, 1, 0, 32, 0, 0, false⟩).fmt) then 3 else 2

/-- Splits the SWAPs at the head of the pass queue from the rest. -/
def leadSwaps : List QItem → Nat × List QItem
  | .swap _ :: q => let r := leadSwaps q; (r.1 + 1, r.2)
  | q => (0, q)

/-- `n` SWAP wavefronts, the first at `s` (R83). -/
def exchanges : Nat → Nat → ArrayState → ArrayState
  | 0, _, a => a
  | n + 1, s, a => exchanges n (s + 1) (Cpu.exchange s a)

namespace Cpu

/-- The cycle in which entry `e`'s next pass starts streaming (R64, R85, R94, R98, R194). -/
def passStartAt (a : ArrayState) (e : Entry) : Nat :=
  let s := max e.issued (max a.streamEnd a.readyAt)
  if e.direct then s + foldCycles e
  else if e.next = 0 then s
  else max s (a.lastStart + foldCycles e)

/-- A pass that restarts after a stop and finds its stationary block, or a streaming row it had read, changed since: its destination rows are
unpredictable (R87). -/
def restartDiffers (r : PassRun) : Bool :=
  r.entry.saw.any fun w => w.idx == r.idx && (w.block.vals != r.block.vals || w.rows != r.rows.take w.rows.length)

/-- The block a pass uses and the array once it has it (R85, R86, R98): the active one for a first pass, one the fold logic loads for
a later one. -/
def passBlock (tiles : Memory) (s : Nat) (e : Entry) (a : ArrayState) : ArrayState :=
  let f := foldOf e
  let b := loadBlock tiles e.stats e.statT e.arr (e.next % f.slices) ((e.next / f.slices) % f.blocks) e.k e.n
  if e.direct then { a with active := b }
  else if e.next = 0 then a
  else { a with active := { b with bad := b.bad || a.taint }, shadow := { a.active with bad := true }, wave := some s,
                shadowFree := s + 32, taint := false }

/-- The next pass of the core starts streaming (R94); nothing happens when the pass queue has no pass that can start. -/
def passStart (sd : Nat) (c : Cpu) : Cpu :=
  match leadSwaps c.array.q with
  | (_, .entry e0 :: _) =>
    let s := passStartAt c.array e0
    let c := runTo sd s c
    match leadSwaps c.array.q with
    | (n, .entry e :: rest) =>
      let a := passBlock (c.viewTile sd (c.issueTag 1)) s e (exchanges n s c.array)
      let last := e.next + 1 = e.passes
      let e1 := { e with next := e.next + 1, direct := e.restart }
      let bad := e.misused || a.active.bad || a.active.arr != e.arr || a.active.fmt != (e.stats.getD 0 ⟨0, 1, 0, 32, 0, 0, false⟩).fmt
      let run : PassRun :=
        { entry := e, idx := e.next, start := s, commitAt := s + passCycles e e.next + 40
          adds := e.acc || e.next % (foldOf e).slices != 0, last, bad, block := a.active, rows := [], done := 0 }
      armWait s { c with array := { a with
        q := if last then rest else .entry e1 :: rest
        run := a.run ++ [run.fill sd s (c.viewScr sd (c.issueTag 2))], streamEnd := s + passCycles e e.next, lastStart := s } }
    | _ => c
  | _ => c

/-- Starved cycles the start of a pass costs beyond its streaming (R85, R93). -/
def starvedCycles (c : Cpu) : Nat :=
  match leadSwaps c.array.q with
  | (_, .entry e :: _) =>
    (if e.direct then 0 else passStartAt c.array e - max e.issued (max c.array.streamEnd c.array.readyAt)) +
      (if e.feedT && halfRate e.fmt then passRows e e.next else 0)
  | _ => 0

/-- A result code of the array: a NaN may have any sign and payload (R76; log entry 10). -/
def nanOr (sd tag i code : Nat) : Nat :=
  if (fp32.decode code).isNan then (Config.free sd tag (2 ^ 20 + i) % 2) * 2 ^ 31 + 0x7FC00000 + Config.free sd tag (2 ^ 21 + i) % 2 ^ 22 else code

/-- The passes in the array behind a starved one, and what is to follow them, are delayed by its `k` starved cycles (R51). -/
def delay (k : Nat) (a : ArrayState) : ArrayState :=
  match a.run with
  | r :: rest =>
    { a with
      run := r :: rest.map fun q => { q with start := q.start + k, commitAt := q.commitAt + k }
      streamEnd := a.streamEnd + k
      lastStart := if rest.isEmpty then a.lastStart else a.lastStart + k
      wave := a.wave.map fun w => if r.start < w then w + k else w
      shadowFree := if r.start + 32 < a.shadowFree then a.shadowFree + k else a.shadowFree }
  | [] => a

/-- The cycles by which the oldest pass in the array is late at its commit: cycles in which it starved (R51, R91; log entry 12). -/
def lateBy (c : Cpu) : Nat :=
  match c.array.run with
  | r :: _ => c.cycle - r.commitAt
  | [] => 0

/-- The FP32 results a commit writes: overwritten, or added to the newest value (R76, R78). -/
def commitElems (sd tag : Nat) (newest : Memory) (r : PassRun) : List Elem :=
  let wrapped := wrappedTiles r.entry
  let sums := r.sums
  let plain := sums.mapIdx fun i x =>
    let old := fp32.decode (newest.getBits accBytes (x.1 * 32) 32)
    let v := if r.bad || restartDiffers r then Config.free sd tag i % 2 ^ 32
      else nanOr sd tag i (if r.adds then fp32.rn (old.add (fp32.decode x.2)) else x.2)
    (⟨x.1 * 32, 32, v⟩ : Elem)
  let hit := wrapped.filter fun t => sums.any fun x => x.1 / 1024 == t
  (plain.filter fun e => !(hit.any fun t => e.pos / 32768 == t)) ++
    (hit.map fun t => (List.range 1024).map fun i =>
      (⟨(t * 1024 + i) * 32, 32, Config.free sd (tag + 64) (t * 1024 + i) % 2 ^ 32⟩ : Elem)).flatten

/-- The oldest pass in the array commits (R80, R94, R95), and the instruction's last one signals (R89). -/
def passCommit (sd : Nat) (c : Cpu) : Cpu :=
  match c.array.run with
  | [] => c
  | r0 :: _ =>
    let x := max c.cycle r0.commitAt
    let c := runTo sd x { c with array := delay c.lateBy c.array }
    match c.array.run with
    | [] => c
    | r :: rest =>
      let es := commitElems sd (c.issueTag 3) c.accNewest r
      let c := later (x + 4) (.acc es) { c with array := { c.array with run := rest } }
      if r.last then signal x engArr r.entry.sem false 1 (x + 4) c else c

/-- What the uncommitted passes of an instruction have read (R87, R98). -/
def readsOf (a : ArrayState) (uid : Nat) : List Read :=
  (a.run.filter fun r => r.entry.uid == uid).map fun r => ⟨r.idx, r.block, r.rows⟩

/-- The array's issue state at a stop: uncommitted instructions at their first uncommitted pass, with the SWAPs and MWAITs between them
(R97, R136). -/
def issueState (a : ArrayState) : List QItem :=
  let firsts := a.run.foldl (fun (acc : List Entry) r =>
    if acc.any fun e => e.uid == r.entry.uid then acc else acc ++ [{ r.entry with next := r.idx, saw := readsOf a r.entry.uid ++ r.entry.saw }]) []
  let inQueue (n : Nat) : Bool := a.q.any fun i => match i with
    | .entry e => e.uid == n
    | _ => false
  ((firsts.filter fun e => !inQueue e.uid).map .entry) ++
    a.q.map fun i => match i with
      | .entry e => match firsts.find? fun f => f.uid == e.uid with
        | some f => .entry { e with next := f.next, saw := f.saw }
        | none => .entry e
      | j => j

/-- The array is stopped (R96): nothing in it commits any more, a wavefront in progress completes, and it streams nothing. -/
def stopArray (a : ArrayState) : ArrayState := { a with q := [], run := [], streamEnd := 0, lastStart := 0, readyAt := 0 }

/-- The saved issue state enters the pass queue again (R98). -/
def reenter (cyc : Nat) (q : List QItem) : List QItem :=
  q.map fun i => match i with
    | .entry e => .entry { e with restart := true, direct := true, issued := cyc }
    | .swap _ => .swap cyc
    | j => j

end Cpu

end Sys2Proof.Machine
end

