-- ==== Sys2Proof/Machine/Issue.lean ====
section
/-! DEFINITION. The issue of one bundle by the sequencer (R39-R41, R101-R150): faults checked first (R107, R108), then each slot
reading the state before the bundle (R104), then the clock. -/

namespace Sys2Proof.Machine

/-- What a bundle asks of the rest of the device. -/
structure IssueOut where
  cpu : Cpu
  /-- a MARK: identifier, step index and bundle address (R120) -/
  mark : Option (Nat × Nat × Nat)
  /-- a DMAI: the descriptor's 64 bytes (R121) -/
  dmai : Option (List Byte)
  faulted : Bool
  deriving DecidableEq, Repr

/-- What the issue of a bundle reads beyond the core: a seed for free values, fabric time, and room in the descriptor queue. -/
structure IssueIn where
  sd : Nat
  now : Nat
  room : Bool
  deriving DecidableEq, Repr

namespace Cpu

/-- A vector function uses field b (R138, R140). -/
def usesB : VFn → Bool
  | .add | .sub | .mul | .fma | .max | .min => true
  | _ => false

/-- Fault code of a move slot (R107). -/
def movFault : MovOp → Nat
  | .undef => 2
  | _ => 0

/-- Fault code of a vector slot (R107). -/
def vecFault : VecOp → Nat
  | .undef => 2
  | .vop f _ a b _ => if badA a || (usesB f && badB b) then 3 else 0
  | .vred f _ a b _ _ => if badA a || (f == .dot && badB b) then 3 else 0
  | .vredS f _ a b _ => if badA a || (f == .dot && badB b) then 3 else 0
  | .cvt _ a _ _ _ => if badA a then 3 else 0
  | .updc _ a _ _ => if badA a then 3 else 0
  | .vsig n _ => if 48 ≤ n then 3 else 0
  | .vwait n _ _ => if 48 ≤ n then 3 else 0
  | _ => 0

/-- Fault code of a matrix slot (R107, R130). -/
def matFault (sd : Nat) (c : Cpu) : MatOp → Nat
  | .undef => 2
  | .tcfg tn sa sh => if tcfgFaults c.tiles tn (cfgOfWord (rdS sd 1 c sa).toNat sh) then 1 else 0
  | .mma _ _ n _ _ => if 48 ≤ n then 3 else 0
  | .mwait n _ _ => if 48 ≤ n then 3 else 0
  | _ => 0

/-- Fault code of a control slot (R107, R114, R115); a lead-processor opcode on an ordinary core is a no-op (R63). -/
def ctlFault (c : Cpu) : CtlOp → Nat
  | .undef => 2
  | .undefLead => if c.lead then 2 else 0
  | .cmp _ cond _ _ => if condDefined cond then 0 else 3
  | .fcmp _ cond _ _ => if !c.lead || (8 ≤ cond && cond ≤ 13) then 0 else 3
  | .kop _ _ _ fn => if fn = 7 then 3 else 0
  | .semInc n _ => if 48 ≤ n then 3 else 0
  | .semSet n _ => if 48 ≤ n then 3 else 0
  | .semW n _ _ => if 48 ≤ n then 3 else 0
  | _ => 0

/-- The lowest-numbered faulting slot and its code (R107, R108). -/
def bundleFault (sd : Nat) (c : Cpu) (b : Bundle) : Option (Nat × Nat) :=
  if movFault b.mov ≠ 0 then some (0, movFault b.mov)
  else if vecFault b.vec ≠ 0 then some (1, vecFault b.vec)
  else if matFault sd c b.mat ≠ 0 then some (2, matFault sd c b.mat)
  else if ctlFault c b.ctl ≠ 0 then some (3, ctlFault c b.ctl)
  else none

/-- Records a core fault; a later one does not overwrite it (R68). -/
def recordFault (code pc slot unit : Nat) (c : Cpu) : Cpu :=
  if c.flt.valid then c else { c with flt := ⟨code, pc, slot, unit, true⟩ }

/-- The reads of a move instruction's rows, one per cycle (R104, R148, R149). -/
def moveRows (sd : Nat) (c : Cpu) : MovOp → List Act
  | .nop | .undef => []
  | .tld tn sa =>
    let w := (rdS sd 2 c sa).toNat
    let t := c.tile tn
    (List.range (bits w 48 41 + 1)).map fun i => .readTld (t.base + (bits w 40 33 + i) % t.rows)
      ((bits w 20 6 * 64 + 64 * bits w 32 21 * i) % scratchBytes) t.width
  | .tst tn sa =>
    let w := (rdS sd 2 c sa).toNat
    let t := c.tile tn
    (List.range (bits w 48 41 + 1)).map fun i => .readTst (t.base + (bits w 40 33 + i) % t.rows)
      ((bits w 20 6 * 64 + 64 * bits w 32 21 * i) % scratchBytes) t.width
  | .ard tn aa row0 n cr =>
    let t := c.tile tn
    let k := (rdC sd 2 c cr).toNat
    (List.range n).map fun j => .readArd (t.base + (k + j) % t.rows) (aa * 32 + (row0 + j) % 32) (t.fmt == 0 && t.cols == 32)

/-- Starts a move instruction in cycle `t`: its first row is read now, as the core `c0` stands, every other one in a later cycle, and each lands
6 cycles after its read (R64, R104). -/
def startMove (sd t : Nat) (c0 : Cpu) (rows : List Act) (c : Cpu) : Cpu :=
  match rows with
  | [] => c
  | a :: rest =>
    let c := { c with moves := c.moves ++ [(t + rows.length + 5, rows)] }
    let c := match rowRead sd t (2 ^ 16) c0 a with
      | some b => later (t + 6) b c
      | none => c
    rest.zipIdx.foldl (fun c r => later (t + 1 + r.2) r.1 c) c

/-- The move slot: each row is read in its own cycle (R104). -/
def runMov (sd : Nat) (c0 : Cpu) (op : MovOp) (c : Cpu) : Cpu := startMove sd c0.cycle c0 (moveRows sd c0 op) c

/-- The value of a reduction over a slice (R141, R492). -/
def reduceVal (f : RFn) (xs ys : List Value) : W32 :=
  match f with
  | .sum => tree f32add 0 (xs.map toF32)
  | .max => tree f32max 0 (xs.map toF32)
  | .ssq => tree f32add 0 (xs.map fun x => let w := ofF32 (toF32 x); toF32 (w.mul w))
  | .dot => tree f32add 0 (List.zipWith (fun x y => toF32 ((ofF32 (toF32 x)).mul (ofF32 (toF32 y)))) xs ys)

/-- Combines a reduction with the element or register it goes to (R141, R142). -/
def combineVal (f : RFn) (r old : W32) : W32 :=
  match f with
  | .max => f32max old r
  | _ => f32add old r

/-- What VRED writes (R141): the combined value at element `p` of the tile, under the block's existing scale when block-scaled. -/
def vredOut (sd tag : Nat) (t : TileCfg) (p : Nat) (v : Value) (m : Memory) : List Elem :=
  let f := fmtOf t.fmt
  if fmtScaled t.fmt then
    let pos := t.scalePos (t.scaleIdx p)
    if v.isFin then
      let sc := m.getBits vfileBytes pos 8
      t.put p [blockElem f .nearest sc v] ++ t.tails p 1
    else ⟨pos, 8, 255⟩ :: (t.put p [Config.free sd tag 0 % 2 ^ t.width] ++ t.tails p 1)
  else t.put p [(f.conv .nearest false v).code] ++ t.tails p 1

/-- What VRED writes when a source tile holds fewer elements than a slice: the element it names is unpredictable (R132; log entry 47). -/
def vredFree (sd tag : Nat) (t : TileCfg) (p : Nat) : List Elem :=
  t.put p [Config.free sd tag 0 % 2 ^ t.width] ++
    (if fmtScaled t.fmt then [⟨t.scalePos (t.scaleIdx p), 8, Config.free sd tag 1 % 256⟩] else []) ++ t.tails p 1

/-- One element of UPDC (R169): the new weight and remainder. -/
def updcElem (w q u : Value) : Nat × Nat :=
  let n := fp32.decode (fp32.rn ((w.add q).add u))
  if n.isFin then
    let w1 := bf16.rn n
    let v := bf16.decode w1
    (w1, if v.isFin then bf16.rn (n.add v.neg) else 0)
  else (bf16.rn n, 0)

/-- The vector slot (R138-R146). -/
def runVec (sd : Nat) (c0 : Cpu) (op : VecOp) (c : Cpu) : Cpu :=
  let t0 := c0.cycle
  match op with
  | .nop | .undef => c
  | .vop f td a b cr =>
    let sa := vsrcOf a
    let sb := if usesB f then vsrcOf b else .reserved
    let dst := VSrc.tile td
    let E := c0.sliceLen [sa, sb, dst]
    let i := (rdC sd 4 c0 cr).toNat
    let t := c0.tile td
    if !blocksFit t E || !c0.slicesFit E [sa, sb, dst] then
      later (t0 + 4) (.tile (t.putFree sd (c0.issueTag 10) (E * i) E)) c
    else
      let xs := c0.readSrc sd 5 E i sa
      let ys := c0.readSrc sd 6 E i sb
      let ds := if f = .fma then c0.readSrc sd 7 E i dst else []
      let rs := xs.mapIdx fun k x => vfnVal f x (ys.getD k .zero) (ds.getD k .zero)
      later (t0 + 4) (.tile (convertOut t (E * i) false (fun _ => .nearest) rs).elems) c
  | .vred f td a b cr s =>
    let sa := vsrcOf a
    let sb := if f = .dot then vsrcOf b else .reserved
    let E := c0.sliceLen [sa, sb, .tile td]
    let i := (rdC sd 4 c0 cr).toNat
    let t := c0.tile td
    let p := i / 2 ^ s
    let whole := c0.slicesFit E [sa, sb]
    let r := reduceVal f (c0.readSrc sd 5 E i sa) (c0.readSrc sd 6 E i sb)
    let m := c0.viewTile sd (c0.issueTag 11)
    let v := combineVal f r (toF32 (t.elem m p))
    later (t0 + 12) (.tile (if whole then vredOut sd (c0.issueTag 10) t p (ofF32 v) m else vredFree sd (c0.issueTag 10) t p)) c
  | .vredS f d a b cr =>
    let sa := vsrcOf a
    let sb := if f = .dot then vsrcOf b else .reserved
    let E := c0.sliceLen [sa, sb]
    let i := (rdC sd 4 c0 cr).toNat
    let r := reduceVal f (c0.readSrc sd 5 E i sa) (c0.readSrc sd 6 E i sb)
    let v := (combineVal f r ((rdS sd 7 c0 d).setWidth 32)).setWidth 64
    later (t0 + 16) (.sreg d (if c0.slicesFit E [sa, sb] then v else BitVec.ofNat 64 (Config.free sd (c0.issueTag 10) 0))) c
  | .cvt td a ss cr g =>
    let sa := vsrcOf a
    let dst := VSrc.tile td
    let E := c0.sliceLen [sa, dst]
    let i := (rdC sd 4 c0 cr).toNat
    let t := c0.tile td
    let lat := if fmtScaled t.fmt then 8 else 6
    if !blocksFit t E || !c0.slicesFit E [sa, dst] then
      let c := later (t0 + lat) (.tile (t.putFree sd (c0.issueTag 10) (E * i) E)) c
      if g && (c0.readSrc sd 5 E i sa).any fun x => !x.isFin then later (t0 + lat) (.ovf true) c else c
    else
      let w := rdS sd 7 c0 ss
      let base := rdS sd 8 c0 ((ss + 1) % 32)
      let step := w.setWidth 32
      let stream := (w >>> 32).setWidth 32
      let mode (k : Nat) : RMode :=
        if g then .stoch (randWord c0.seed step stream (base + BitVec.ofNat 64 (E * i + k))).toNat else .nearest
      let o := convertOut t (E * i) g mode (c0.readSrc sd 5 E i sa)
      let c := later (t0 + lat) (.tile o.elems) c
      if o.ovf then later (t0 + lat) (.ovf true) c else c
  | .rng td ss cr =>
    let i := (rdC sd 4 c0 cr).toNat
    let t := c0.tile td
    let E := c0.sliceLen [.tile td]
    if t.fmt ≠ 0 || !c0.slicesFit E [.tile td] then later (t0 + 10) (.tile (t.putFree sd (c0.issueTag 10) (E * i) E)) c
    else
      let w := rdS sd 7 c0 ss
      let base := rdS sd 8 c0 ((ss + 1) % 32)
      let word (k : Nat) : Nat :=
        (randWord c0.seed (w.setWidth 32) ((w >>> 32).setWidth 32) (base + BitVec.ofNat 64 (64 * i + k))).toNat
      later (t0 + 10) (.tile (t.put (64 * i) ((List.range 64).map word) ++ t.tails (64 * i) 64)) c
  | .updc tw a tq cr =>
    let sa := vsrcOf a
    let E := c0.sliceLen [sa, .tile tw, .tile tq]
    let i := (rdC sd 4 c0 cr).toNat
    let w := c0.tile tw
    let q := c0.tile tq
    let aOk := match sa with
      | .tile n => (c0.tile n).fmt = 0 || (c0.tile n).fmt = 1
      | _ => true
    if w.fmt ≠ 1 || q.fmt ≠ 1 || !aOk || !c0.slicesFit E [sa, .tile tw, .tile tq] then
      later (t0 + 8) (.tile (q.putFree sd (c0.issueTag 12) (E * i) E))
        (later (t0 + 8) (.tile (w.putFree sd (c0.issueTag 10) (E * i) E)) c)
    else
      let us := c0.readSrc sd 5 E i sa
      let ws := c0.readSrc sd 6 E i (.tile tw)
      let qs := c0.readSrc sd 7 E i (.tile tq)
      let rs := us.mapIdx fun k u => updcElem (ws.getD k .zero) (qs.getD k .zero) u
      later (t0 + 8) (.tile (q.put (E * i) (rs.map (·.2)) ++ q.tails (E * i) E))
        (later (t0 + 8) (.tile (w.put (E * i) (rs.map (·.1)) ++ w.tails (E * i) E)) c)
  | .vsig n v => signal (t0 + 16) engVec n false v 0 c
  | .vwait n k t => registerWait t0 engVec n t k c

/-- Nothing streams, is held or crosses the array (R83). -/
def arrayIdle (c : Cpu) : Bool :=
  c.held == 0 && c.array.run.isEmpty && !swapPending c.array &&
    (match c.array.wave with
     | some s => s + 32 ≤ c.cycle
     | none => true)

/-- A SWAP with the array idle (R83): complete at the next cycle; of an LDS still on its way each element is read early (R65). -/
def swapIdle (sd : Nat) (c : Cpu) : Cpu :=
  let a := c.array
  let seen := c.pend.foldl (fun b p => match p.act with
    | .shadow n => mixBlocks sd (c.issueTag (400 + p.due % 4)) b n
    | .readLds _ _ _ _ n => mixBlocks sd (c.issueTag (404 + p.due % 4)) b n
    | _ => b) a.shadow
  { c with array := { a with active := seen, shadow := a.active, shadowFree := c.cycle + 1 } }

/-- The entry an MMA-family instruction makes from its two words (R134). -/
def entryOf (c : Cpu) (ws wo : Nat) (sem arr : Nat) (feedT : Bool) : Entry :=
  let g := bits ws 40 39 + 1
  let fmt := bits wo 36 33
  let k := bits ws 27 20 + 1
  { uid := c.cycle, issued := c.cycle, m := bits ws 11 0 + 1, n := bits ws 19 12 + 1, k, dest := bits ws 33 28, acc := bit ws 34
    stats := (List.range g).map fun j => c.tile ((bits ws 38 35 + j) % 16)
    statT := bit ws 41, addr := bits wo 20 6 * 64, pitch := bits wo 32 21, fmt, block := bits wo 38 37, feedT, sem
    arr := arrOf arr k (fmtE fmt), next := 0, restart := false, direct := false, saw := [] }

/-- LDS and LDS.T (R92, R104, R133): the block is read in the cycle of issue, and reaches the shadow 2 cycles later; a transposed load in a half-rate
format reads its second half a cycle later. -/
def runLds (sd : Nat) (c0 : Cpu) (tg g ks nb arr : Nat) (t : Bool) (c : Cpu) : Cpu :=
  let stats := (List.range g).map fun j => c0.tile ((tg + j) % 16)
  let K := groupK stats t
  let fmt := (c0.tile tg).fmt
  let a := arrOf arr K (fmtE fmt)
  let b := loadBlock (c0.viewTile sd (c0.issueTag 13)) stats t a ks nb K (groupN stats t)
  if t && halfRate fmt then later (c0.cycle + 1) (.readLds stats a ks nb b) c else later (c0.cycle + 2) (.shadow b) c

/-- The matrix slot (R129-R135). -/
def runMat (sd : Nat) (c0 : Cpu) (op : MatOp) (c : Cpu) : Cpu :=
  match op with
  | .nop | .undef => c
  | .tcfg tn sa sh => { c with tiles := c.tiles.set tn (some (cfgOfWord (rdS sd 1 c0 sa).toNat sh)) }
  | .release tn => { c with tiles := c.tiles.set tn none }
  | .lds tg g ks nb arr t =>
    runLds sd c0 tg g ks nb arr t c
  | .swap => if c0.arrayIdle then swapIdle sd c else { c with array := { c.array with q := c.array.q ++ [.swap c0.cycle] } }
  | .mma sa sb sem arr t =>
    if 4 ≤ c0.held then { c with passOverrun := true }
    else { c with array := { c.array with
      q := c.array.q ++ [.entry (c0.entryOf (rdS sd 1 c0 sa).toNat (rdS sd 3 c0 sb).toNat sem arr t)] } }
  | .mwait n k t => armWait c0.cycle { c with array := { c.array with q := c.array.q ++ [.wait n t k] } }

/-- A bundle's taken branch, if it takes one (R116, R127). -/
def branchOf (sd : Nat) (c : Cpu) : CtlOp → Option Nat
  | .br t => some t
  | .brK k s t => if rdK sd 9 c k = s then some t else none
  | .brC n t => if rdC sd 9 c n - 1 ≠ 0 then some t else none
  | .brI sa => if c.lead then some (bundleAddr (rdS sd 9 c sa).toNat) else none
  | .call t => if c.lead then some t else none
  | .ret =>
    if c.lead then
      match c.rets with
      | r :: _ => some r
      | [] => some (bundleAddr (Config.free sd (c.issueTag 14) 0))
    else none
  | _ => none

/-- The value TIME.RD reads: within 2 ns of fabric time and never less than the last (R57, R119). -/
def timeRead (x : IssueIn) (c : Cpu) : Nat := max c.timeCopy (x.now + pick x.sd (c.issueTag 15) 0 5 - 2)

/-- Byte offset of a lead-processor access (R125). -/
def leadOff (a : Word) (imm : Int) (log2 : Nat) : Nat :=
  let o := (a + BitVec.ofInt 64 imm).toNat % leadBytes
  o - o % 2 ^ log2

/-- The control slot but for branches, MARK and the queue side of DMAI (R111-R127). -/
def runCtl (x : IssueIn) (c0 : Cpu) (op : CtlOp) (c : Cpu) : Cpu :=
  let sd := x.sd
  let t := c0.cycle
  let src (b : Src) : Word := match b with
    | .reg n => rdS sd 10 c0 n
    | .imm v => BitVec.ofInt 64 v
  let onLead (d : Cpu) : Cpu := if c0.lead then d else c
  match op with
  | .nop | .undef | .undefLead | .br _ | .brK _ _ _ | .brI _ | .mark _ _ => c
  | .alu f sd' sa b => later (t + 1) (.sreg sd' (aluVal f (rdS sd 9 c0 sa) (src b))) c
  | .li d v => later (t + 1) (.sreg d (BitVec.ofInt 64 v)) c
  | .lih d q v => later (t + 1) (.sreg d (BitVec.ofNat 64 (setBits (rdS sd 9 c0 d).toNat (16 * q + 15) (16 * q) v))) c
  | .lcSet n v => later (t + 1) (.lc n (BitVec.ofNat 32 v)) c
  | .lcAdd n v => later (t + 1) (.lc n (rdC sd 9 c0 n + BitVec.ofInt 32 v)) c
  | .lcMov n sa => later (t + 1) (.lc n ((rdS sd 9 c0 sa).setWidth 32)) c
  | .movC d n => later (t + 1) (.sreg d ((rdC sd 9 c0 n).setWidth 64)) c
  | .cmp k cond sa b =>
    let y := match b with
      | .reg n => rdS sd 10 c0 n
      | .imm v => immOperand cond v
    later (t + 1) (.kreg k (condHolds cond (rdS sd 9 c0 sa) y)) c
  | .kop k a b fn => later (t + 1) (.kreg k (kopVal fn (rdK sd 9 c0 a) (rdK sd 10 c0 b))) c
  | .brC n _ => later (t + 1) (.lc n (rdC sd 9 c0 n - 1)) c
  | .semInc n v => signal t engSeq n false v 0 c
  | .semSet n v => signal t engSeq n true v 0 c
  | .semW n k tg => registerWait t engSeq n tg k c
  | .waitT sa =>
    let target := (rdS sd 9 c0 sa).toNat
    { c with seqTime := some (target, t, target ≤ c0.timeRead x), timeCopy := c0.timeRead x }
  | .timeRd d => later (t + 1) (.sreg d (BitVec.ofNat 64 (c0.timeRead x))) { c with timeCopy := c0.timeRead x }
  | .dmai k _ => later (t + 1) (.kreg k x.room) c
  | .scaleDn d sa sh => later (t + 1) (.sreg d (scaleDnVal (rdS sd 9 c0 sa) sh)) c
  | .flagK k => later (t + 1) (.kreg k (rdOvf sd 9 c0)) c
  | .flagClr => later (t + 1) (.ovf false) c
  | .stop => { c with ended := true }
  | .load l d sa imm =>
    onLead (later (t + 3) (.sreg d (BitVec.ofNat 64
      (leNat ((c0.viewLead sd (c0.issueTag 22)).readWrap leadBytes (leadOff (rdS sd 9 c0 sa) imm l) (2 ^ l))))) c)
  | .store l sb sa imm =>
    onLead (later (t + 1) (.lead (leadOff (rdS sd 9 c0 sa) imm l) (leBytes (2 ^ l) (rdS sd 10 c0 sb).toNat)) c)
  | .fp f d sa sb sc =>
    onLead (later (t + fpLatency f)
      (.sreg d (fpVal sd (c0.issueTag 20) f (rdS sd 9 c0 sa) (rdS sd 10 c0 sb) (rdS sd 11 c0 sc))) c)
  | .fcmp k cond sa sb =>
    onLead (later (t + 4) (.kreg k (fcondHolds cond (ofF64 (rdS sd 9 c0 sa)) (ofF64 (rdS sd 10 c0 sb)))) c)
  | .cvt f d sa => onLead (later (t + 4) (.sreg d (cvtVal sd (c0.issueTag 20) f (rdS sd 9 c0 sa))) c)
  | .call _ => onLead { c with rets := (bundleAddr (c0.pc + 4) :: c.rets).take 32 }
  | .ret => onLead { c with rets := c.rets.drop 1 }

/-- Moves the program counter past an issued bundle (R40, R41). -/
def nextPc (taken : Option Nat) (c : Cpu) : Cpu :=
  let old := c.brs.map fun b => (b.1 - 1, b.2)
  let hit := old.filter fun b => b.1 == 0
  let keep := old.filter fun b => b.1 != 0
  { c with
    lastPc := c.pc
    pc := match hit.getLast? with
      | some b => b.2
      | none => bundleAddr (c.pc + 1)
    brs := keep ++ (match taken with
      | some t => [(3, t)]
      | none => []) }

/-- Issues bundle `b` in the core's current cycle, when the sequencer issues one (R39). -/
def issue (x : IssueIn) (b : Bundle) (c : Cpu) : IssueOut :=
  if !c.issues then ⟨c, none, none, false⟩
  else
    match bundleFault x.sd c b with
    | some (slot, code) =>
      let c1 := recordFault code c.pc slot 0 c
      ⟨runTo x.sd (c.cycle + 1) { c1 with st := .stopped }, none, none, true⟩
    | none =>
      let c1 := runCtl x c b.ctl (runVec x.sd c b.vec (runMat x.sd c b.mat (runMov x.sd c b.mov c)))
      let c2 := nextPc (branchOf x.sd c b.ctl) c1
      { cpu := runTo x.sd (c.cycle + 1) c2
        mark := match b.ctl with
          | .mark sa id => some (id, (rdS x.sd 9 c sa).toNat % 2 ^ 32, c.pc)
          | _ => none
        dmai := match b.ctl with
          | .dmai _ sa =>
            if x.room then
              some ((c.viewScr x.sd (c.issueTag 21)).readWrap scratchBytes
                (((rdS x.sd 9 c sa).toNat % scratchBytes) / 64 * 64) 64)
            else none
          | _ => none
        faulted := false }

/-- The bundle at the program counter (R102). -/
def fetch (c : Cpu) : Bundle := decodeBundle (c.prog.readLE (16 * c.pc) 16)

/-- The earliest result or row in flight lands: the clock runs to its cycle (R106; log entry 12). -/
def landNext (sd : Nat) (c : Cpu) : Cpu :=
  match minOf (c.pend.map (·.due)) with
  | some d => runTo sd d c
  | none => c

/-- The earliest semaphore update on its way lands (R189). -/
def updateNext (sd : Nat) (c : Cpu) : Cpu :=
  match minOf (c.sups.map (·.land)) with
  | some d => runTo sd d c
  | none => c

/-- Removes the first MWAIT of the pass queue. -/
def dropMwait : List QItem → List QItem
  | [] => []
  | .wait _ _ _ :: q => q
  | i :: q => i :: dropMwait q

/-- The satisfied waiter `e` resumes in its cycle (R194). -/
def wake (sd e : Nat) (c : Cpu) : Cpu :=
  match c.waits.find? fun w => w.eng == e && w.wakeAt.isSome with
  | some w =>
    let x := w.wakeAt.getD 0
    let c := dropWait e (runTo sd (max c.cycle x) c)
    if e = engArr then
      armWait c.cycle { c with array := { c.array with q := dropMwait c.array.q, readyAt := max c.array.readyAt x } }
    else c
  | none => c

end Cpu

end Sys2Proof.Machine
end

