-- ==== Sys2Proof/Machine/Command.lean ====
section
/-! DEFINITION. The firmware commands of R362 as data, as the device keeps them while they wait, are armed or run. -/

namespace Sys2Proof.Machine

/-- A command with its parameters (R362). -/
inductive Cmd where
  | jobLoad (p : JobLoad)
  | jobStart
  | jobPreempt
  | jobResume
  | jobUnload
  | jobReset
  | cellReplace (cell : Nat)
  | mcastSet (group count addr : Nat)
  | objMap (p : ObjMap)
  | objUnmap (obj : Nat)
  | placeRise (obj first count : Nat)
  | placeSink (obj first count : Nat)
  | pin (obj : Nat)
  | unpin (obj : Nat)
  | winSet (win addr : Nat)
  | winStart (win : Nat)
  | winStop (win : Nat)
  | snapshot (p : SnapSrc)
  | restore (p : SnapSrc)
  | adopt (p : SnapSrc) (fx fy fz : Nat)
  | boundedLoss (n : Nat)
  | collRun (addr : Nat)
  | fabricConfig (addr : Nat)
  | linkEnable (link : Nat)
  | linkDisable (link : Nat)
  | setLinkShares (coll bulk : Nat)
  | setFlueShares (sel demand move ember coll control : Nat)
  | releaseCancel (ring tag : Nat)
  | traceConfig (die mode post size : Nat)
  | traceTrigger (mask : Nat)
  | counterSelect (cell counter event : Nat)
  | captureSet (slot engine addr : Nat)
  | captureClear (slot : Nat)
  | ashClear (auth : List Byte)
  | ringCreate (ring s c subBase cmpBase : Nat)
  | ringDelete (ring : Nat)
  /-- FW_STAGE with its phase 0, 1 or 2 -/
  | fwStage (phase off len src : Nat) (body : List Byte)
  | fwConfirm
  | fenceClear (phys : Nat) (auth : List Byte)
  | deviceReset (force : Nat)
  | powerLimit (watts : Nat)
  | placeQuery (obj first count buf : Nat)
  | jobQuery (buf : Nat)
  | timeQuery
  | regRead (addr words buf : Nat)
  | snapQuery (buf : Nat)
  | ringQuery (ring : Nat)
  /-- an opcode that is undefined, or reserved to firmware (R361) -/
  | undefined (opcode : Nat)
  deriving DecidableEq, Repr

/-- A command's opcode (R362). -/
def Cmd.opcode : Cmd → Nat
  | .jobLoad _ => 0x0101
  | .jobStart => 0x0102
  | .jobPreempt => 0x0103
  | .jobResume => 0x0104
  | .jobUnload => 0x0105
  | .jobReset => 0x0106
  | .cellReplace _ => 0x0107
  | .mcastSet _ _ _ => 0x0108
  | .objMap _ => 0x0201
  | .objUnmap _ => 0x0202
  | .placeRise _ _ _ => 0x0203
  | .placeSink _ _ _ => 0x0204
  | .pin _ => 0x0205
  | .unpin _ => 0x0206
  | .winSet _ _ => 0x0207
  | .winStart _ => 0x0208
  | .winStop _ => 0x0209
  | .snapshot _ => 0x0301
  | .restore _ => 0x0302
  | .adopt _ _ _ _ => 0x0303
  | .boundedLoss _ => 0x0304
  | .collRun _ => 0x0401
  | .fabricConfig _ => 0x0402
  | .linkEnable _ => 0x0403
  | .linkDisable _ => 0x0404
  | .setLinkShares _ _ => 0x0405
  | .setFlueShares _ _ _ _ _ _ => 0x0406
  | .releaseCancel _ _ => 0x0501
  | .traceConfig _ _ _ _ => 0x0601
  | .traceTrigger _ => 0x0602
  | .counterSelect _ _ _ => 0x0603
  | .captureSet _ _ _ => 0x0604
  | .captureClear _ => 0x0605
  | .ashClear _ => 0x0606
  | .ringCreate _ _ _ _ _ => 0x0701
  | .ringDelete _ => 0x0702
  | .fwStage _ _ _ _ _ => 0x0703
  | .fwConfirm => 0x0704
  | .fenceClear _ _ => 0x0705
  | .deviceReset _ => 0x0706
  | .powerLimit _ => 0x0801
  | .placeQuery _ _ _ _ => 0x0901
  | .jobQuery _ => 0x0902
  | .timeQuery => 0x0903
  | .regRead _ _ _ => 0x0904
  | .snapQuery _ => 0x0905
  | .ringQuery _ => 0x0906
  | .undefined o => o

/-- Release kinds of R338, as the Rel column of R362 gives them. -/
inductive RelKind where
  | timer
  | arm
  | tick
  deriving DecidableEq, Repr

/-- The Rel column of R362. -/
def Cmd.rel : Cmd → RelKind
  | .jobStart | .jobResume | .snapshot _ | .collRun _ => .timer
  | .winStart _ => .arm
  | _ => .tick

/-- The Rep column of R362: replies without rt; an undefined opcode writes one. -/
def Cmd.replies : Cmd → Nat
  | .jobLoad _ | .jobStart | .jobPreempt | .jobResume | .jobUnload | .jobReset | .cellReplace _ | .objUnmap _
  | .placeRise _ _ _ | .placeSink _ _ _ | .snapshot _ | .restore _ | .adopt _ _ _ _ | .collRun _ | .fabricConfig _
  | .captureClear _ | .ashClear _ | .ringDelete _ | .fwStage _ _ _ _ _ | .fwConfirm | .fenceClear _ _ | .deviceReset _ => 2
  | _ => 1

/-- The command names a job context (R350, R362). -/
def Cmd.namesJob : Cmd → Bool
  | .jobLoad _ | .jobStart | .jobPreempt | .jobResume | .jobUnload | .jobReset | .cellReplace _ | .mcastSet _ _ _ | .objMap _
  | .objUnmap _ | .placeRise _ _ _ | .placeSink _ _ _ | .pin _ | .unpin _ | .winSet _ _ | .winStart _ | .winStop _ | .snapshot _
  | .restore _ | .adopt _ _ _ _ | .boundedLoss _ | .collRun _ | .captureSet _ _ _ | .captureClear _ | .placeQuery _ _ _ _
  | .jobQuery _ | .snapQuery _ => true
  | .counterSelect cell _ _ => cell != 0xFFFF
  | _ => false

/-- Where an outstanding command stands. -/
inductive OutPhase where
  /-- waits on its fence (R354) -/
  | fenced
  /-- waits for its release time (R338) -/
  | armed
  /-- waits for cores (R261, R387) -/
  | placing
  | running
  deriving DecidableEq, Repr

/-- A command taken up whose final reply has not been written. -/
structure Out where
  uid : Nat
  h : Hdr
  cmd : Cmd
  phase : OutPhase
  /-- the fabric time at which it took effect -/
  effect : Nat
  /-- the deadline in fabric time (R355) -/
  deadline : Option Nat
  late : Bool
  /-- blocks still pending, blocks ST_OK and not ST_OK (R247) -/
  blocks : List Nat
  okBlocks : Nat
  badBlocks : Nat
  /-- item records have been written -/
  records : Bool
  /-- coordinates of the sending device for ring 62; address, port and sequence of the datagram for ring 63 -/
  from_ : Nat × Nat × Nat
  deriving DecidableEq, Repr

/-- An entry that waits in firmware memory: the command it belongs to, whether it is that command's final reply, its bytes (R348, R357). -/
structure HeldEntry where
  cmd : Option Nat
  reply : Bool
  bytes : List Byte
  deriving DecidableEq, Repr

/-- A ring in service (R344-R349). -/
structure Ring where
  num : Nat
  s : Nat
  c : Nat
  subBase : Nat
  cmpBase : Nat
  subCons : Nat
  cmpProd : Nat
  /-- entries reserved for replies of commands taken up (R348) -/
  reserved : Nat
  /-- records that wait for room, and final replies that wait behind records of their commands, oldest first -/
  held : List HeldEntry
  /-- the next reply has items_lost set -/
  lost : Bool
  /-- created, and serviceable from the next tick boundary (R349) -/
  fresh : Bool
  /-- RING_DELETE has stopped take-up -/
  closing : Bool
  /-- units published and not taken up, by number, as the device last read them (R13) -/
  seen : List (Nat × List Byte)
  /-- software has written into the completion ring: later replies are unpredictable (R13) -/
  spoiled : Bool
  deriving DecidableEq, Repr

end Sys2Proof.Machine
end

