-- ==== Sys2Proof/Machine/DmaState.lean ====
section
/-! DEFINITION. The state of a core's data engines: fetch/store queue, request slots, arrival path (chapter 10, R52, R53), as plain
data. -/

namespace Sys2Proof.Machine

/-- How far an item is (R274-R276). -/
inductive ItemPhase where
  /-- in the queue, not started -/
  | queued
  /-- its start condition has been satisfied and it has not begun (R202) -/
  | woken
  | running
  deriving DecidableEq, Repr

/-- A piece of an item in transfer order (R271-R273): `off` its first byte in that order, `len` its bytes, source and destination as
offsets from words 0 and 1; a piece without a source writes zeros (R272).  `part` is how many bits of its last byte belong to the row, when not
all of them do (R154, R272). -/
structure Piece where
  off : Nat
  len : Nat
  src : Option Int
  dst : Int
  part : Option Nat
  deriving DecidableEq, Repr

/-- A member of a multicast item (R281-R284, R382). -/
structure Member where
  cell : Nat
  failed : Bool
  /-- missed the deadline -/
  late : Bool
  /-- bytes of the item that have landed -/
  got : Nat
  /-- had received and counted every byte before a stop; it is sent nothing (R287) -/
  counted : Bool
  deriving DecidableEq, Repr

/-- An item: one accepted descriptor (R265). -/
structure Item where
  uid : Nat
  /-- the 64 bytes of the descriptor -/
  raw : List Byte
  /-- the deadline's tick D (R275) -/
  deadline : Option Nat
  phase : ItemPhase
  members : List Member
  /-- pieces not yet formed into requests -/
  todo : List Piece
  /-- bytes of the item in transfer order -/
  total : Nat
  /-- bytes to land at each cell that receives the item, padding included (R272) -/
  land : Nat
  /-- bytes before this offset were written before a restart (R287) -/
  base : Nat
  /-- a request failed: the offset of the first one (R279) -/
  failAt : Option Nat
  /-- the first byte never formed into a request, when forming stopped early -/
  cut : Option Nat
  timedOut : Bool
  /-- a write of it waited on a block whose owner was reset (R391) -/
  ownerLost : Bool
  deriving DecidableEq, Repr

/-- Where a request stands. -/
inductive ReqPhase where
  /-- to be served at its source -/
  | read
  /-- data held behind requests of its multicast item that were formed earlier (R283) -/
  | held
  /-- data held, to be served at a memory destination -/
  | write
  /-- copies on their way to cells -/
  | land
  /-- sent to another device, or written and not yet acknowledged -/
  | ack
  deriving DecidableEq, Repr

/-- A request (R273). `queued` waits in an issue queue and holds no slot (R225). -/
structure Req where
  slot : Nat
  item : Nat
  piece : Piece
  phase : ReqPhase
  queued : Bool
  data : List Byte
  /-- copies not yet landed or failed (R283) -/
  copies : Nat
  /-- when it was sent to another device (R285, R311) -/
  sentAt : Nat
  /-- it has found the copy-on-write reserve empty (R411) -/
  cowLate : Bool
  deriving DecidableEq, Repr

/-- Whom the write of a remote item is acknowledged to: device, target word, job tag (R285, R298). -/
structure AckTo where
  dev : Nat × Nat × Nat
  word : Nat
  tag : Nat
  deriving DecidableEq, Repr

/-- A request on its way into a core (R280): from core `issuer`'s slot, for member `member` of its item, or from another device. -/
structure ArrReq where
  issuer : Option Nat
  slot : Nat
  item : Nat
  member : Nat
  cell : Nat
  /-- its first byte in transfer order, and the window offset at which it lands -/
  off : Nat
  woff : Nat
  data : List Byte
  /-- bytes the item brings to this core, and the semaphore it counts on -/
  total : Nat
  sem : Option Nat
  /-- the bits of its last byte that are written, when not all of them are (R272) -/
  part : Option Nat
  /-- a copy for a multicast member: its acceptance, not its landing, frees the slot (R283) -/
  copy : Bool
  /-- from another device, which hears of the landing (R285) -/
  ackTo : Option AckTo
  deriving DecidableEq, Repr

/-- An incoming item the arrival engine tracks (R280). -/
structure Track where
  issuer : Option Nat
  item : Nat
  member : Nat
  got : Nat
  deriving DecidableEq, Repr

/-- DMA_FAIL_LAST (R291). -/
structure FailLast where
  itemId : Nat
  status : Nat
  valid : Bool
  units : Nat
  deriving DecidableEq, Repr

/-- The fetch/store engine and arrival path of a core. -/
structure Dma where
  /-- accepted descriptors, oldest first, at most 64 (R37, R43) -/
  q : List Item
  reqs : List Req
  nextUid : Nat
  failLast : FailLast
  /-- landing buffers in use, oldest first, at most 64, and requests waiting for a credit (R280) -/
  bufs : List ArrReq
  waiting : List ArrReq
  tracked : List Track
  /-- the arrival path grants no credit (R288, R291) -/
  closed : Bool
  deriving DecidableEq, Repr

/-- Nothing queued, nothing arriving (R291). -/
def Dma.reset : Dma :=
  { q := [], reqs := [], nextUid := 0, failLast := ⟨0, 0, false, 0⟩, bufs := [], waiting := [], tracked := [], closed := false }

end Sys2Proof.Machine
end

