-- ==== Sys2Proof/Machine/LinkState.lean ====
section
/-! DEFINITION. The state of links, fabric, collective engines and fabric time (chapters 11 and 12), as plain data. -/

namespace Sys2Proof.Machine

/-- LINK_PEER and what else NEGOTIATE exchanged (R303, R323). -/
structure Peer where
  x : Nat
  y : Nat
  z : Nat
  link : Nat
  group : Nat
  serial : Nat
  valid : Bool
  deriving DecidableEq, Repr

/-- A flit's worth of a packet: virtual channel, buffer class, the packet it belongs to, and its 244 payload bytes (R294, R298). -/
structure TxFlit where
  vc : Nat
  cls : Nat
  pkt : Nat
  body : List Byte
  deriving DecidableEq, Repr

/-- A Yohorn link (R292-R305, R323, R334). -/
structure Link where
  /-- state code of R303 -/
  state : Nat
  failCode : Nat
  retrains : Nat
  /-- group code of R307 -/
  group : Nat
  peer : Peer
  fecCorr : Nat
  fecUncorr : Nat
  crcErr : Nat
  replay : Nat
  /-- next seq to send, next seq expected -/
  txSeq : Nat
  rxSeq : Nat
  /-- data flits sent and not acknowledged, oldest first (R297) -/
  unacked : List (Nat × TxFlit)
  /-- flits that wait for a credit or for room in the replay buffer, oldest first (R297-R299) -/
  txq : List TxFlit
  /-- packets of which a flit is not acknowledged: number on this link, buffer class, bytes (R302) -/
  held : List (Nat × Nat × List Byte)
  /-- packets put on this link -/
  pkts : Nat
  /-- credits held, by 3 × virtual channel + class (R299) -/
  credit : List Nat
  /-- the seq last named by a NAK, and the successive resends of it (R304) -/
  nakSeq : Nat
  nakRun : Nat
  /-- seq that NAK flits sent have named, newest first -/
  naksSent : List Nat
  /-- flits that the link has sent, as bytes, newest first (R294) -/
  flits : List (List Byte)
  /-- flits of freed receive buffers whose credit has not gone back to the peer, by 3 × virtual channel + class (R299) -/
  owed : List Nat
  /-- the last flit received was bad (R295; log entry 65) -/
  wasBad : Bool
  /-- fabric time of the last TIME flit; flits sent since the last CONTROL flit; what is left of the round's weights (R300) -/
  timeSent : Option Nat
  ctlGap : Nat
  round : Nat × Nat
  /-- payload bytes of packets not yet whole, by virtual channel (R298) -/
  rx : List (Nat × List Byte)
  /-- flits received since the last ack sent, and acks sent (R297) -/
  sinceAck : Nat
  acks : Nat
  /-- fabric times of entries into RETRAIN, and of uncorrectable codewords (R304) -/
  retrainTimes : List Nat
  badTimes : List Nat
  /-- LINK_DISABLE sends idle flits before it stops the lanes (R305) -/
  disabling : Bool
  /-- filtered delay and symbols since the filter's restart (R334) -/
  delayPs : Nat
  delayCount : Nat
  /-- t_tx of the last symbol received, and symbols sent -/
  lastTx : Nat
  symsSent : Nat
  /-- hop count and master of the last symbol; 255 when the peer is not LOCKED or unknown (R332, R333) -/
  peerHops : Nat
  peerMaster : Nat
  deriving DecidableEq, Repr

/-- No peer known (R323). -/
def Peer.none : Peer := ⟨0, 0, 0, 0, 7, 0, false⟩

/-- Credits of a link as it enters ACTIVE: the peer's receiver buffers, by 3 × virtual channel + class (R299). -/
def fullCredit : List Nat := [16, 16, 8, 4, 0, 0, 256, 256, 32, 256, 256, 32]

/-- A link after a device reset: FUSED when fused off, otherwise DISABLED (R303, R323). -/
def Link.reset (present : Bool) : Link :=
  { state := if present then 0 else 7, failCode := 0, retrains := 0, group := 7, peer := .none, fecCorr := 0, fecUncorr := 0,
    crcErr := 0, replay := 0, txSeq := 0, rxSeq := 0, unacked := [], txq := [], held := [], pkts := 0, credit := fullCredit, nakSeq := 0, nakRun := 0, naksSent := [], flits := [],
    owed := List.replicate 12 0, wasBad := false, timeSent := none, ctlGap := 15, round := (0, 0), rx := [], sinceAck := 0,
    acks := 0, retrainTimes := [], badTimes := [], disabling := false, delayPs := 0, delayCount := 0, lastTx := 0, symsSent := 0, peerHops := 255, peerMaster := 0 }

/-- The fabric configuration (R306, R328, R366). -/
structure FabCfg where
  x : Nat
  y : Nat
  z : Nat
  dx : Nat
  dy : Nat
  dz : Nat
  wx : Bool
  wy : Bool
  wz : Bool
  source : Nat
  mx : Nat
  my : Nat
  mz : Nat
  sx : Nat
  sy : Nat
  sz : Nat
  standby : Bool
  groups : List Nat
  valid : Bool
  deriving DecidableEq, Repr

/-- No configuration (R323). -/
def FabCfg.none : FabCfg :=
  { x := 0, y := 0, z := 0, dx := 0, dy := 0, dz := 0, wx := false, wy := false, wz := false, source := 0, mx := 0, my := 0, mz := 0,
    sx := 0, sy := 0, sz := 0, standby := false, groups := List.replicate 36 7, valid := false }

/-- COLL_FAIL_LAST (R323). -/
structure CollFail where
  status : Nat
  op : Nat
  job : Nat
  tag : Nat
  valid : Bool
  deriving DecidableEq, Repr

/-- A collective engine (R313, R323). -/
structure CollEngine where
  present : Bool
  failed : Bool
  count : Nat
  failLast : CollFail
  deriving DecidableEq, Repr

/-- How far a collective is (R314, R320, R323). -/
inductive CollPhase where
  /-- waits for its release -/
  | accepted
  /-- its release fell inside a snapshot stop of its job (R407) -/
  | deferred
  /-- released, and waits until its engines run fewer than 8 (R313) -/
  | released
  | running
  /-- its completion record is on its way (R320) -/
  | notifying
  deriving DecidableEq, Repr

/-- A collective accepted and not complete (R314-R322). -/
structure Coll where
  uid : Nat
  ring : Nat
  tag : Nat
  job : Nat
  /-- the 64 bytes of the descriptor -/
  raw : List Byte
  engines : List Nat
  phase : CollPhase
  /-- axes still to run, the first being the current one: 0 X, 1 Y, 2 Z -/
  axes : List Nat
  /-- this device's input to the current axis; GLOBAL_NORM: empty until every slot has matched -/
  work : List Byte
  /-- peers' inputs received: axis, position, bytes -/
  got : List (Nat × Nat × List Byte)
  /-- GLOBAL_NORM: slots whose stamp has matched, with their bytes -/
  slots : List (Nat × List Byte)
  /-- what the final reply is to carry, once the record has landed or failed -/
  status : Nat
  reason : Nat
  result : Nat
  notifyFailed : Bool
  /-- an abort has come before the release (R322) -/
  aborted : Bool
  deriving DecidableEq, Repr

/-- Fabric time but for its value (R324-R337, R343). -/
structure TimeSt where
  /-- state code of R332 -/
  state : Nat
  role : Nat
  valid : Bool
  srcLost : Bool
  hops : Nat
  parent : Nat
  srcLocked : Bool
  slewing : Bool
  srcOffset : Int
  offsetPs : Int
  rateAdj : Int
  late : Nat
  /-- the one step of R325 has been taken -/
  stepped : Bool
  /-- fabric time since which the offset has stayed within 4 ns -/
  within : Option Nat
  /-- entry into HOLDOVER or UNLOCKED -/
  holdSince : Nat
  /-- bits [15:0] of the master's serial number -/
  master : Nat
  deriving DecidableEq, Repr

/-- Fabric time after a device reset (R343). -/
def TimeSt.reset : TimeSt :=
  { state := 0, role := 0, valid := false, srcLost := false, hops := 127, parent := 63, srcLocked := false, slewing := false,
    srcOffset := 0, offsetPs := 0, rateAdj := 0, late := 0, stepped := false, within := none, holdSince := 0, master := 0 }

end Sys2Proof.Machine
end

