-- ==== Sys2Proof/Machine/ObsState.lean ====
section
/-! DEFINITION. The state of counters, trace, capture, the Ash log, and snapshots (chapters 15 and 16), as plain data. -/

namespace Sys2Proof.Machine

/-- Event counters and trace unit of a core (R422-R426, R432). -/
structure CoreObs where
  /-- EVT_CNT0-15: epoch × 2^48 + count -/
  cnt : List Nat
  /-- EVT_RF -/
  rf : Nat
  sel : List Nat
  /-- counters reset in the cycle `resetCycle`, with the values they had at the end of the cycle before (R426) -/
  resetMask : Nat
  resetCycle : Nat
  prev : List Nat
  /-- the trace unit's queue: records without their sequence numbers, at most 16 -/
  queue : List (List Byte)
  dropped : Nat
  /-- a run of drops: its length, first and last times -/
  run : Nat
  runFirst : Nat
  runLast : Nat
  deriving DecidableEq, Repr

/-- Nothing counted, nothing queued (R446). -/
def CoreObs.reset : CoreObs :=
  { cnt := List.replicate 16 0, rf := 0, sel := List.replicate 16 0, resetMask := 0, resetCycle := 0, prev := List.replicate 16 0,
    queue := [], dropped := 0, run := 0, runFirst := 0, runLast := 0 }

/-- A die's trace buffer (R428-R432, R447). -/
structure Trc where
  mode : Nat
  /-- 0 off, 1 running, 2 triggered, 3 stopped -/
  state : Nat
  post : Nat
  sizeMib : Nat
  base : Nat
  next : Nat
  trig : Option Nat
  /-- TRC_DROPPED -/
  dropped : Nat
  /-- drops since the LOSS record's slot was reserved, and their span -/
  lossCount : Nat
  lossFirst : Nat
  lossLast : Nat
  /-- the LOSS record is to be rewritten at the next tick -/
  lossDirty : Bool
  /-- a configuration accepted and not yet in force: mode, share, size -/
  pending : Option (Nat × Nat × Nat)
  deriving DecidableEq, Repr

/-- A trace buffer after a device reset (R447). -/
def Trc.reset : Trc :=
  { mode := 0, state := 0, post := 0, sizeMib := 0, base := 0, next := 0, trig := none, dropped := 0, lossCount := 0, lossFirst := 0,
    lossLast := 0, lossDirty := false, pending := none }

/-- Where a capture slot stands (R434-R437). -/
inductive CapPhase where
  | armed
  | fired
  | running
  | spent
  deriving DecidableEq, Repr

/-- A capture slot of a job (R434-R437). -/
structure CapSlot where
  slot : Nat
  /-- 0 W, 1 E, 0xFF either -/
  engine : Nat
  raw : List Byte
  phase : CapPhase
  /-- cell, step and time of the MARK -/
  cell : Nat
  step : Nat
  markTime : Nat
  /-- engine that runs the copy -/
  onEngine : Nat
  /-- outcome of a copy that something has ended early: status and reason -/
  status : Nat
  reason : Nat
  /-- the source when the copy started; the bytes copied when something has ended it early -/
  bytes : List Byte
  deriving DecidableEq, Repr

/-- A capture engine (R447). -/
structure CapEngine where
  failed : Bool
  done : Nat
  deriving DecidableEq, Repr

/-- The last record written for a trigger code and source, and the triggers suppressed since (R442). -/
structure AshTrig where
  code : Nat
  die : Nat
  unit : Nat
  time : Nat
  suppressed : Nat
  deriving DecidableEq, Repr

/-- The Ash log but for its flash copy and its heart view, which lie in those memories (R439-R445). -/
structure Ash where
  /-- the SRAM mirror: records by sequence number, newest last, at most 4,096 -/
  mirror : List (Nat × List Byte)
  /-- the next sequence number -/
  next : Nat
  /-- last sequence number copied to flash, and written to the view -/
  flashed : Nat
  viewed : Nat
  oldest : Nat
  suppressed : Nat
  trigs : List AshTrig
  nonce : Nat
  deriving DecidableEq, Repr

/-- An empty log: sequence numbers start at 1 (R439). -/
def Ash.empty : Ash := { mirror := [], next := 1, flashed := 0, viewed := 0, oldest := 0, suppressed := 0, trigs := [], nonce := 0 }

/-- An image to be copied (R412): a block, or a state frame of a cell with its bytes. -/
inductive SnapImage where
  | block (idx : Nat)
  | frame (cell n : Nat) (data : Memory)
  deriving DecidableEq, Repr

/-- A job's snapshot state (R404-R419). -/
structure Snap where
  epoch : Nat
  id : Nat
  /-- 0 none, 1 stopping, 2 copying, 3 complete, 4 failed (R417) -/
  state : Nat
  /-- a stop is under way; its drain has been judged complete (R405) -/
  stop : Bool
  drained : Bool
  /-- bit 0 buddy, bit 1 NVMe -/
  dests : Nat
  bx : Nat
  bz : Nat
  by_ : Nat
  ns : Nat
  ctrl : Nat
  lba : Nat
  /-- the outstanding SNAPSHOT, when a command started it -/
  uid : Option Nat
  /-- T, the stop's release time -/
  start : Nat
  late : Bool
  /-- items by core and collectives that had started by T (R407) -/
  drain : List (Nat × Nat)
  todo : List SnapImage
  total : Nat
  taken : Nat
  digests : List (List Byte)
  buddyFailed : Bool
  nvmeFailed : Bool
  /-- images that failed by an error of their own -/
  imageFailed : Bool
  /-- the manifest's table parts frozen at the advance -/
  manifest : List Byte
  endTime : Nat
  cowLate : Nat
  bounded : Nat
  marks : Nat
  /-- a SNAPSHOT of the job has named a buddy: its coordinates (R419) -/
  lastBuddy : Option (Nat × Nat × Nat)
  deriving DecidableEq, Repr

/-- No snapshot taken (R404). -/
def Snap.none : Snap :=
  { epoch := 0, id := 0, state := 0, stop := false, drained := false, dests := 0, bx := 0, bz := 0, by_ := 0, ns := 0, ctrl := 0, lba := 0, uid := Option.none,
    start := 0, late := false, drain := [], todo := [], total := 0, taken := 0, digests := [], buddyFailed := false, nvmeFailed := false,
    imageFailed := false, manifest := [], endTime := 0, cowLate := 0, bounded := 0, marks := 0, lastBuddy := Option.none }

/-- A RESTORE or ADOPT under way (R420, R421): its command, its source, the failed device's coordinates for ADOPT, the manifest once read. -/
structure Rest where
  uid : Nat
  id : Nat
  dests : Nat
  buddy : Nat × Nat × Nat
  failed : Option (Nat × Nat × Nat)
  manifest : List Byte
  started : Bool
  next : Nat
  bad : Bool
  /-- an ADOPT that took a new coordinate waits for the time and its link (R421) -/
  waits : Bool
  deriving DecidableEq, Repr

/-- A buddy store generation (R415). -/
structure StoreGen where
  x : Nat
  y : Nat
  z : Nat
  tag : Nat
  complete : Bool
  images : List (List Byte)
  manifest : List Byte
  deriving DecidableEq, Repr

end Sys2Proof.Machine
end

