-- ==== Sys2Proof/Machine/Place.lean ====
section
/-! DEFINITION. The Placement Directory's records: objects, blocks, moves waiting and under way, stream windows (chapter 09), as plain
data. -/

namespace Sys2Proof.Machine

/-- An object (R235, R237). -/
structure Obj where
  num : Nat
  first : Nat
  count : Nat
  layout : Nat
  fmt : Nat
  block : Nat
  group : Nat
  owner : Nat
  snap : Bool
  /-- 0 heart, 1 base -/
  initTier : Nat
  pins : Nat
  rows : Nat
  cols : Nat
  deriving DecidableEq, Repr

/-- Block states (R238). -/
inductive BState where
  | unmapped
  | heart
  | base
  | rising
  | sinking
  | frozen
  deriving DecidableEq, Repr

/-- The code of a block state (R238). -/
def BState.code : BState → Nat
  | .unmapped => 0
  | .heart => 1
  | .base => 2
  | .rising => 3
  | .sinking => 4
  | .frozen => 5

/-- An image of the current epoch that the snapshot copy has not taken (R212, R242): its job, its tier, and its bytes once it is separate from
the home copy. -/
structure BImage where
  job : Nat
  tier : Nat
  stack : Nat
  data : Option Memory
  deriving DecidableEq, Repr

/-- Who asked for a move (R244): a command's outstanding entry, a pin, a window of a job, a touch, a rise's victim, or a stalled write. -/
inductive Origin where
  | command (uid : Nat)
  | pin (obj : Nat)
  | window (job win region : Nat)
  | touch
  /-- makes room for the rise of a block -/
  | victim (for_ : Nat)
  /-- refills the copy-on-write reserve (R410) -/
  | reserve
  deriving DecidableEq, Repr

/-- A waiting intent on one block; intents are kept in acceptance order (R244, R245). -/
structure Intent where
  block : Nat
  rise : Bool
  cls : Nat
  origin : Origin
  deriving DecidableEq, Repr

/-- A move a mover copies (R240, R242). -/
structure Move where
  block : Nat
  mover : Nat
  cls : Nat
  /-- destination tier and stack -/
  tier : Nat
  stack : Nat
  /-- a copy-on-write copy of a FROZEN block -/
  cow : Bool
  /-- it fills a frame of the copy-on-write reserve (R411) -/
  reserve : Bool
  /-- intents that joined it (R239) -/
  for_ : List Intent
  deriving DecidableEq, Repr

/-- A block that is mapped, or that still holds an image (R238). -/
structure Blk where
  idx : Nat
  state : BState
  /-- tier of the home copy: 0 heart, 1 base -/
  tier : Nat
  stack : Nat
  poisoned : Bool
  image : Option BImage
  /-- tick of the last demand access, or of the mapping -/
  access : Nat
  deriving DecidableEq, Repr

/-- A region of a stream window in one run (R252-R255). -/
structure WinRegion where
  addr : Nat
  blocks : Nat
  layer : Nat
  expert : Nat
  fwd : Nat
  bwd : Nat
  /-- an expert the window raises (R257); every region of a window that is not PREDICTED -/
  chosen : Bool
  /-- its rise has started and the cursor has not left it -/
  held : Bool
  /-- a demand request of the job has reached one of its blocks in this run -/
  seen : Bool
  late : Bool
  ashed : Bool
  deriving DecidableEq, Repr

/-- A stream window (R251-R258). -/
structure Win where
  num : Nat
  listAddr : Nat
  regions : Nat
  depth : Nat
  flags : Nat
  predict : Nat
  leadNs : Nat
  lateNs : Nat
  periodNs : Nat
  histAddr : Nat
  routeAddr : Nat
  active : Bool
  /-- S, shifted by the time the job was not resident (R260) -/
  start : Int
  runs : Nat
  cursor : Nat
  reverse : Bool
  list : List WinRegion
  late : Nat
  skipped : Nat
  /-- route-table versions last seen, by layer group (R258) -/
  versions : List Nat
  deriving DecidableEq, Repr

end Sys2Proof.Machine
end

