-- ==== Sys2Proof/Machine/DevState.lean ====
section
/-! DEFINITION. The records of the device beyond one core: cores as placed, job contexts, memory registers, firmware, power, board
interfaces (chapters 01, 08, 13, 14, 17, 18), as plain data. -/

namespace Sys2Proof.Machine

/-- The fuses (R3, R17-R19, R34, R466): the grade, stepping, serial number, disabled physical cores, those of them that passed test, key
slots with their hashes, and the MAC address. -/
structure Fuses where
  tk9620 : Bool
  stepping : Nat
  serial : Nat
  disabled : List Nat
  tested : List Nat
  keyHash0 : List Byte
  keyHash1 : List Byte
  programmed : Nat
  revoked : Nat
  mac : Nat
  deriving DecidableEq, Repr

/-- A core under its LCN (R17-R20, R68). -/
structure Core where
  phys : Nat
  lead : Bool
  leadIndex : Nat
  /-- its bit in CORE_AVAIL -/
  avail : Bool
  job : Option Nat
  cell : Nat
  cpu : Cpu
  dma : Dma
  obs : CoreObs
  /-- SRAM_ECC -/
  eccCorrected : Nat
  eccLast : Nat
  /-- PF_DROPPED and BANK_SATURATED: epoch × 2^48 + count -/
  pfDropped : Nat
  bankSat : Nat
  /-- touches the run-ahead unit has sent for descriptors in the queue: item and block (R54) -/
  touches : List (Nat × Nat)
  /-- a stop request is on its way (R378) -/
  stopSent : Bool
  /-- issue is withheld: the job has not started, waits for its other cells, or is in a snapshot stop (R264, R387, R405) -/
  withheld : Bool
  /-- CORE_STATE code and fabric time at the stop (R381) -/
  stoppedState : Nat
  stopTime : Nat
  /-- the router has failed (R25) -/
  routerFailed : Bool
  /-- counted cycles of the core's domain up to `State.clockAt` (R66, R477; log entry 46) -/
  clock : Nat
  deriving DecidableEq, Repr

/-- The core `phys` with nothing placed on it. -/
def Core.fresh (phys : Nat) (lead : Bool) (leadIndex : Nat) : Core :=
  { phys, lead, leadIndex, avail := true, job := none, cell := 0, cpu := Cpu.reset lead, dma := Dma.reset, obs := CoreObs.reset,
    eccCorrected := 0, eccLast := 0, pfDropped := 0, bankSat := 0, touches := [], stopSent := false, withheld := false, stoppedState := 0,
    stopTime := 0, routerFailed := false, clock := 0 }

/-- What a save area holds that is not bytes: save_state, stopped_state, and the control record (R381, R67). -/
structure Save where
  /-- 0 empty, 1 writing, 2 valid, 3 lost -/
  state : Nat
  stopped : Nat
  /-- the control record; `none` when the save holds no bulk state (R386) -/
  control : Option Cpu
  obs : CoreObs
  /-- the members of each item of the restart list (R282, R382) -/
  members : List (List Member)
  deriving DecidableEq, Repr

/-- No save (R381). -/
def Save.empty : Save := ⟨0, 0, none, CoreObs.reset, []⟩

/-- A cell of a job's grid (R261-R263). -/
structure Cell where
  lcn : Nat
  lead : Bool
  /-- its valid bit in the grid map -/
  valid : Bool
  ended : Bool
  /-- END has been reported since the job's start -/
  lost : Bool
  replaced : Nat
  /-- its state has been restored in the resume under way -/
  restored : Bool
  save : Save
  deriving DecidableEq, Repr

/-- A job context (R363, R368, R369). -/
structure Job where
  /-- state code of R368 -/
  state : Nat
  ctxGen : Nat
  mapGen : Nat
  priority : Nat
  ring : Nat
  /-- whom the records of ring 63 go to -/
  from_ : Nat × Nat × Nat
  flags : Nat
  jobTag : Nat
  gx : Nat
  gy : Nat
  seed : Nat
  argument : Nat
  program : Nat
  leads : List Nat
  ox : Nat
  oy : Nat
  oz : Nat
  ex : Nat
  ey : Nat
  ez : Nat
  cells : List Cell
  /-- order of JOB_LOAD acceptance -/
  loadSeq : Nat
  /-- state from which it was loaded (R261) -/
  loadedFrom : Nat
  /-- the outstanding JOB_START -/
  startUid : Option Nat
  /-- a stop under way: the state left, and the outstanding JOB_PREEMPT when a command asked for it -/
  leftState : Nat
  preemptUid : Option Nat
  /-- a JOB_PREEMPT, or a policy preemption, waits for the snapshot stop to end (R402) -/
  preemptHeld : Bool
  /-- event to write when the stop ends: 3 or 5, 0 for none (R359) -/
  stopEvent : Nat
  /-- fabric time at which it stopped being resident (R260) -/
  awaySince : Nat
  /-- multicast groups, and those set and not yet in force (R281) -/
  groups : List (Nat × List Nat)
  groupsNext : List (Nat × List Nat)
  wins : List Win
  /-- bytes of incoming items that have landed in save areas: cell, item, bytes (R288) -/
  landed : List (Nat × (Option Nat × Nat × Nat) × Nat)
  caps : List CapSlot
  /-- counter selections: cell, counter, event (R424) -/
  sels : List (Nat × Nat × Nat)
  snap : Snap
  rest : Option Rest
  deriving DecidableEq, Repr

/-- An empty context (R368). -/
def Job.empty : Job :=
  { state := 0, ctxGen := 0, mapGen := 0, priority := 0, ring := 0, from_ := (0, 0, 0), flags := 0, jobTag := 0, gx := 0, gy := 0, seed := 0, argument := 0,
    program := 0, leads := [], ox := 0, oy := 0, oz := 0, ex := 0, ey := 0, ez := 0, cells := [], loadSeq := 0, loadedFrom := 0,
    startUid := none, leftState := 0, preemptUid := none, preemptHeld := false, stopEvent := 0, awaySince := 0, groups := [], groupsNext := [],
    wins := [], landed := [], caps := [], sels := [], snap := Snap.none, rest := none }

/-- A DDR5 channel (R216, R232, R234). -/
structure Chan where
  populated : Bool
  inUse : Bool
  ranks : Nat
  gib : Nat
  corrected : Nat
  deriving DecidableEq, Repr

/-- An HBM stack (R233, R234, R392). -/
structure Stack where
  inUse : Bool
  failed : Bool
  corrected : Nat
  /-- it failed at run time, and leaves the tier at the next reset -/
  broken : Bool
  deriving DecidableEq, Repr

/-- The memory registers and what the firmware found at boot (R34, R234). -/
structure MemReg where
  mapValid : Bool
  hostGib : Nat
  tieredMib : Nat
  heartUsable : Nat
  rate : Nat
  chanGib : Nat
  baseTotal : Nat
  baseValid : Bool
  fwHeld : Nat
  fwHeldValid : Bool
  traceMib : Nat
  heartEcc : Nat
  baseEcc : Nat
  poisonCount : Nat
  /-- POISON_LAST -/
  poisonLast : Nat
  /-- uncorrectable errors that the patrol has found in memory that backs no block (R230) -/
  strayErrs : Nat
  chans : List Chan
  hbms : List Stack
  deriving DecidableEq, Repr

/-- The memory registers after a device reset (R234). -/
def MemReg.reset : MemReg :=
  { mapValid := false, hostGib := 0, tieredMib := 0, heartUsable := 0, rate := 0, chanGib := 0, baseTotal := 0, baseValid := false,
    fwHeld := 0, fwHeldValid := false, traceMib := 0, heartEcc := 0, baseEcc := 0, poisonCount := 0, poisonLast := 0, strayErrs := 0,
    chans := List.replicate 16 ⟨false, false, 0, 0, 0⟩, hbms := List.replicate 12 ⟨false, false, 0, false⟩ }

/-- The firmware registers, staging session and watchdogs (R455-R468). -/
structure Fw where
  stage : Nat
  trial : Bool
  attempts : Nat
  fallback : Bool
  strap : Bool
  cause : Nat
  /-- FW_STATUS.staging -/
  staging : Nat
  check : Nat
  actVersion : Nat
  actSlot : Nat
  actVerified : Bool
  prevVersion : Nat
  prevSlot : Nat
  prevVerified : Bool
  stgVersion : Nat
  /-- pages written in the session, as page numbers of the body -/
  pages : List Nat
  /-- a header is staged and not finished -/
  session : Bool
  bootCount : Nat
  /-- fabric time by which the start watchdog fires, and the confirm watchdog, when armed (R461) -/
  startDog : Option Nat
  confirmDog : Option Nat
  /-- the first health mark of this boot has been sent -/
  marked : Bool
  /-- the settings record in force: the one that Kindling read at this boot, `none` before it reads (R452, R456) -/
  settings : Option (List Byte)
  deriving DecidableEq, Repr

/-- The firmware registers after a device reset of a cause (R468, R472). -/
def Fw.reset (cause : Nat) : Fw :=
  { stage := 0, trial := false, attempts := 0, fallback := false, strap := false, cause, staging := 0, check := 0, actVersion := 0,
    actSlot := 0, actVerified := false, prevVersion := 0, prevSlot := 0, prevVerified := false, stgVersion := 0, pages := [],
    session := false, bootCount := 0, startDog := none, confirmDog := none, marked := false,
    settings := none }

/-- What an outstanding flash operation does when it completes (R376, R448). -/
inductive FlashOp where
  | stageHeader (uid version : Nat)
  | stageBody (uid pages : Nat)
  | stageFinish (uid version : Nat) (ok : Bool)
  | confirm (uid : Nat)
  | ashClear (uid last : Nat)
  | fenceClear (uid n : Nat)
  | fabric (uid : Nat)
  | adopt (uid : Nat)
  deriving DecidableEq, Repr

/-- Recovery mode (R464, R465). -/
structure Recovery where
  /-- 0 none, 1 timed, 2 untimed -/
  mode : Nat
  /-- cause of ANNOUNCE -/
  cause : Nat
  /-- what the boot does when timed recovery ends: 0 continue at step 6 of R456, 1 fall back, 2 continue at step 5 -/
  after : Nat
  /-- seconds of ANNOUNCEs sent in timed recovery -/
  secs : Nat
  client : Option (Nat × Nat)
  /-- the ACKs sent, by the client's address and port and the sequence -/
  acks : List (Nat × Nat × Nat × List Byte)
  deriving DecidableEq, Repr

/-- Not in recovery. -/
def Recovery.none : Recovery := ⟨0, 0, 0, 0, Option.none, []⟩

/-- The power loop, the Damper and the sensors (R474-R480, R491). -/
structure Power where
  limit : Nat
  /-- a limit taken up and not yet in force -/
  limitNext : Option Nat
  unmet : Bool
  /-- newest first, at most 100 -/
  samples : List Nat
  /-- the power level of the four compute dies -/
  level : Nat
  /-- loop runs with level 15 and power above the limit -/
  runsOver : Nat
  thermal : List Nat
  dip : List Nat
  temps : List Int
  warn : Nat
  dipped : Nat
  dipCount : Nat
  /-- lowest sample of the dip of each rail in mV -/
  lowest : List Nat
  deriving DecidableEq, Repr

/-- Power state after a device reset (R474, R491). -/
def Power.reset (envelope : Nat) : Power :=
  { limit := envelope, limitNext := none, unmet := false, samples := [], level := 0, runsOver := 0, thermal := List.replicate 4 0,
    dip := List.replicate 4 0, temps := List.replicate 72 0, warn := 0, dipped := 0, dipCount := 0, lowest := List.replicate 11 0 }

/-- A firmware processor (R15, R398). -/
structure Warden where
  failed : Bool
  /-- fabric time of its last heartbeat -/
  beat : Nat
  deriving DecidableEq, Repr

/-- Control pins and reference inputs (R482, R488). -/
structure Pins where
  resetN : Bool
  pwrOk : Bool
  alive : Bool
  /-- FAULT_N is released -/
  faultN : Bool
  refClk : Bool
  lrefW : Bool
  lrefE : Bool
  pcieRef : Bool
  tref : Bool
  deriving DecidableEq, Repr

/-- The I3C target (R487). -/
structure I3c where
  dyn : Option Nat
  pointer : Nat
  /-- the bytes the last private read returned -/
  out : List Byte
  deriving DecidableEq, Repr

/-- The PCIe root port and the NVMe controllers that answer below it (R414, R485). -/
structure Pcie where
  up : Bool
  nvme : Nat
  deriving DecidableEq, Repr

/-- The device's own counters (R427, R447). -/
structure DevCnt where
  cnt : List Nat
  sel : List Nat
  /-- DEV_RF0-DEV_RF3 -/
  rf : List Nat
  /-- counters reset at `resetTime`, with the values before (R426) -/
  resetMask : Nat
  resetTime : Nat
  prev : List Nat
  /-- selections accepted and not yet in force -/
  selNext : List (Nat × Nat)
  deriving DecidableEq, Repr

/-- Device counters after a reset (R447). -/
def DevCnt.reset : DevCnt :=
  { cnt := List.replicate 256 0, sel := List.replicate 256 0, rf := List.replicate 4 0, resetMask := 0, resetTime := 0,
    prev := List.replicate 256 0, selNext := [] }

/-- A command published in a ring and not taken up, with the device it came from (R352, R373). -/
structure Waiting where
  h : Hdr
  cmd : Cmd
  units : Nat
  from_ : Nat × Nat × Nat
  /-- a reason with which it fails at take-up: 6 a bad units field, 1 an opcode its source may not send, 2 an unknown job tag (R350, R373) -/
  bad : Option Nat
  deriving DecidableEq, Repr

/-- What the device has answered or sent at its edge. -/
inductive Sent where
  /-- a datagram of the management port: address, port, bytes (R374, R465) -/
  | datagram (ip port : Nat) (data : List Byte)
  /-- an ARP or ICMP reply (R486) -/
  | arp (target : Nat)
  | icmp (dst : Nat) (data : List Byte)
  /-- the value of a host, PCIe or I3C read -/
  | value (data : List Byte)
  /-- an access fault or Unsupported Request (R208, R485) -/
  | accessFault
  /-- a store or a load that reached the PCIe outbound window (R485) -/
  | pcieOut (store : Bool) (addr : Nat) (data : List Byte)
  /-- a Write of the firmware's NVMe queue pair, with FUA or without, and a Flush: controller, namespace, first LBA, bytes (R414) -/
  | nvmeWrite (ctrl ns lba : Nat) (fua : Bool) (data : List Byte)
  | nvmeFlush (ctrl ns : Nat)
  deriving DecidableEq, Repr

end Sys2Proof.Machine
end

