-- ==== Sys2Proof/Machine/State.lean ====
section
/-! DEFINITION. The state of the device: every register, store, queue, counter, mode and pin of the manual, as plain data, and the queue of
the commands that wait to be taken (log entry 13). -/

namespace Sys2Proof.Machine

/-- The reasons a step stops with a fault.  The block has no behaviour that stops it: a device-fatal fault is a reset (R399, R472). -/
inductive Fault where
  /-- raised by no meaning (log entry 14): safe -/
  | internal
  deriving DecidableEq, Repr

/-- The reasons a command is refused. -/
inductive Refusal where
  /-- raised by a dispatch arm whose command has no meaning yet: safe -/
  | notModelled (mnemonic : String)
  deriving DecidableEq, Repr

/-- The device. -/
structure State where
  /-- commands waiting, first in, first out -/
  pending : List Instr
  /-- counter that seeds the free values (log entry 1) -/
  free : Nat
  /-- fabric time in ns (R324, R343) -/
  now : Nat
  /-- fabric time at which `Core.clock` was last brought up (log entry 46) -/
  clockAt : Nat
  /-- mtime of the host cores (R484) -/
  mtime : Nat
  fuses : Fuses
  pins : Pins
  /-- a reset is in progress: t0 has not come (R472) -/
  inReset : Bool
  /-- cores by LCN (R18) -/
  cores : List Core
  /-- CORE_AVAIL_GEN -/
  availGen : Nat
  /-- bytes of host region, firmware heart window and tiered range by device address (R207) -/
  mem : Memory
  /-- blocks that are mapped, by rising index (R238) -/
  blks : List Blk
  objs : List Obj
  intents : List Intent
  moves : List Move
  moverFailed : List Bool
  /-- MOVE_ABORTED0-3 -/
  moveAborted : List Nat
  /-- poisoned blocks of the host region and the firmware heart window, as addresses over 65,536 (R228) -/
  poison : List Nat
  memReg : MemReg
  /-- images of blocks that have been unmapped since, until they are taken (R239, R243) -/
  kept : List (Nat × BImage)
  /-- source frames of moves that have committed, by tier, with the requests served there that are not complete: core, slot, item, byte (R240) -/
  oldFrames : List (Nat × List (Nat × Nat × Nat × Nat))
  /-- writes of no request slot that wait on a copy-on-write: address, bytes, and who hears of them (R242, R411) -/
  stalled : List (Nat × List Byte × Option AckTo)
  /-- the copy-on-write reserve is kept, and its free frames (R410) -/
  reserveKept : Bool
  reserve : Nat
  jobs : List Job
  /-- control records by their bytes, newest first (R67, R381; log entry 27) -/
  controls : List (List Byte × Save)
  /-- JOB_LOADs accepted -/
  loads : Nat
  outs : List Out
  nextUid : Nat
  waitq : List Waiting
  rings : List Ring
  /-- what the device has sent at the management port, the host side and I3C, newest first -/
  sent : List Sent
  /-- replies kept by client and sequence: address, port, sequence, bytes (R374) -/
  mgmtSeen : List (Nat × Nat × Nat × List Byte)
  /-- replies to peer firmware, to leave as CONTROL_MSG packets, newest first: destination and bytes (R373) -/
  peerReplies : List ((Nat × Nat × Nat) × List Byte)
  /-- packets handed to the links, newest first: destination, class, bytes (R298) -/
  packets : List ((Nat × Nat × Nat) × Nat × List Byte)
  /-- packets delivered by the links, newest first: virtual channel and bytes (R298) -/
  delivered : List (Nat × List Byte)
  links : List Link
  fab : FabCfg
  /-- collective and bulk shares in force, and accepted (R300) -/
  shareColl : Nat
  shareBulk : Nat
  shareNext : Option (Nat × Nat)
  /-- next nseq to send, by 4 × group + virtual channel; nseqs delivered, newest first (R302) -/
  nseqNext : List Nat
  nseqSeen : List (Nat × Nat)
  /-- FABRIC_UNREACH.count and FABRIC_ESCAPE -/
  unreachCnt : Nat
  escape : Nat
  /-- shares of the compute-die routers and the port-die attachments, and those accepted (R28) -/
  flueCore : List Nat
  fluePort : List Nat
  flueNext : List (Nat × List Nat)
  engines : List CollEngine
  colls : List Coll
  time : TimeSt
  dev : DevCnt
  trcs : List Trc
  capEng : List CapEngine
  ash : Ash
  /-- digest engines out of use (R392) -/
  digestFailed : List Bool
  /-- buddy store generations of other devices (R415) -/
  store : List StoreGen
  fw : Fw
  flash : Memory
  /-- the fence list in the CONFIG region: physical cores (R21; log entry 29) -/
  fenceList : List Nat
  flashOps : List FlashOp
  recovery : Recovery
  power : Power
  i3c : I3c
  pcie : Pcie
  wardens : List Warden
  deriving DecidableEq, Repr

/-- Physical index of die `d`, row `r`, column `c` (R17). -/
def physIndex (d r c : Nat) : Nat := 160 * d + 10 * r + c

/-- The 16 disabled cores of a die of the reset state's part, all tested good (log entry 15). -/
def partDisabled (d : Nat) : List Nat :=
  ((List.range 6).map fun c => physIndex d 14 c) ++ ((List.range 10).map fun c => physIndex d 15 c)

/-- The part of the reset state: a TK9640 (log entry 15). -/
def Fuses.part : Fuses :=
  { tk9620 := false, stepping := 1, serial := 1, disabled := (List.range 4).flatMap partDisabled,
    tested := (List.range 4).flatMap partDisabled, keyHash0 := List.replicate 48 0, keyHash1 := List.replicate 48 0, programmed := 0,
    revoked := 0, mac := 0 }

/-- The nominal lead positions and lead-capable spares of a die, in the order they are taken (R19): which spare serves when more than one could is the
model's choice (log entry 61). -/
def leadSpots (d : Nat) : List Nat :=
  [physIndex d 0 2, physIndex d 0 7, physIndex d 8 2, physIndex d 8 7, physIndex d 15 2, physIndex d 15 7]

/-- The enabled cores of a die after the fence list has been applied (R21): each fenced core that was enabled takes one spare, in
ascending physical index, a lead-capable spare first when the fenced core was serving as a lead core.  The fenced cores are taken in ascending
physical index, which is the model's choice (log entry 61). -/
def enabledCores (f : Fuses) (fenced : List Nat) (d : Nat) : List Nat :=
  let all := (List.range 160).map fun i => 160 * d + i
  let on := all.filter fun p => !f.disabled.contains p
  let leads := ((leadSpots d).filter fun p => on.contains p).take 4
  let spares := all.filter fun p => f.disabled.contains p && f.tested.contains p && !fenced.contains p
  let spots := leadSpots d
  let used := (on.filter fun p => fenced.contains p).foldl (fun (acc : List Nat) p =>
    let left := spares.filter fun s => !acc.contains s
    let first := if leads.contains p then (left.filter fun s => spots.contains s) ++ left else left
    match first with
    | s :: _ => s :: acc
    | [] => acc) []
  all.filter fun p => (on.contains p && !fenced.contains p) || used.contains p

/-- The lead cores of a die, in ascending LCN (R19); the spares among them come in the order of `leadSpots` (log entry 61). -/
def leadCores (f : Fuses) (fenced : List Nat) (d : Nat) : List Nat :=
  let on := enabledCores f fenced d
  let four := ((leadSpots d).filter fun p => on.contains p).take 4
  on.filter fun p => four.contains p

/-- The numbering of a device reset (R18, R21): cores by LCN. -/
def numberCores (f : Fuses) (fenced : List Nat) : List Core :=
  (List.range 4).flatMap fun d =>
    let leads := leadCores f fenced d
    (enabledCores f fenced d).map fun p =>
      Core.fresh p (leads.contains p) (if leads.contains p then 4 * d + leads.idxOf p else 0)

/-- The collective engines of a grade (R3, R34). -/
def gradeEngines (tk9620 : Bool) : List CollEngine :=
  [true, !tk9620, true, !tk9620].map fun p => ⟨p, false, 0, ⟨0, 0, 0, 0, false⟩⟩

/-- A link is not fused off in the grade (R3, R34). -/
def linkPresent (tk9620 : Bool) (n : Nat) : Bool :=
  decide (n < 36) && (!tk9620 || decide (n < 12) || (decide (18 ≤ n) && decide (n < 30)))

/-- The envelope of a grade in W (R3). -/
def envelopeOf (tk9620 : Bool) : Nat := if tk9620 then 1200 else 1500

/-- The device right after a device reset of a cause, before Kindling runs: what a reset keeps is given (R472). -/
def State.afterReset (f : Fuses) (cause now free : Nat) (fenced : List Nat) (flash : Memory) (ash : Ash) : State :=
  { pending := [], free, now, clockAt := now, mtime := 0, fuses := f,
    pins := { resetN := true, pwrOk := true, alive := false, faultN := true, refClk := true, lrefW := true, lrefE := true, pcieRef := true,
              tref := true },
    inReset := false, cores := numberCores f fenced, availGen := 0, mem := [], blks := [], objs := [], intents := [], moves := [],
    moverFailed := List.replicate 4 false, moveAborted := List.replicate 4 0, poison := [], memReg := MemReg.reset, kept := [], oldFrames := [], stalled := [],
    reserveKept := false, reserve := 0, jobs := List.replicate 8 Job.empty, controls := [], loads := 0, outs := [], nextUid := 0, waitq := [], rings := [],
    sent := [], mgmtSeen := [], peerReplies := [], packets := [], delivered := [],
    links := (List.range 36).map fun n => Link.reset (linkPresent f.tk9620 n), fab := FabCfg.none,
    shareColl := 48, shareBulk := 16, shareNext := none, nseqNext := List.replicate 24 0, nseqSeen := [], unreachCnt := 0, escape := 0,
    flueCore := [40, 12, 6, 4, 2], fluePort := [16, 12, 8, 24, 4], flueNext := [], engines := gradeEngines f.tk9620, colls := [],
    time := TimeSt.reset, dev := DevCnt.reset, trcs := List.replicate 6 Trc.reset, capEng := List.replicate 2 ⟨false, 0⟩, ash,
    digestFailed := List.replicate 8 false, store := [], fw := Fw.reset cause, flash, fenceList := fenced, flashOps := [], recovery := Recovery.none,
    power := Power.reset (envelopeOf f.tk9620), i3c := ⟨none, 0, []⟩, pcie := ⟨false, 0⟩,
    wardens := List.replicate 20 ⟨false, 0⟩ }

/-- The device right after a power-on reset (R472): nothing booted, nothing in memory (log entries 5, 7, 15). -/
def State.reset : State := State.afterReset Fuses.part 0 0 0 [] [] Ash.empty

end Sys2Proof.Machine
end

