-- ==== Sys2Proof/Machine/Registers.lean ====
section
/-! DEFINITION. Register space as a view of the state (R8-R11, R33, R34, R68, R206, R209, R234, R291, R323, R343, R446, R447, R468, R491): the
value a read of a register returns, and what the read itself changes (RC fields, R426). -/

namespace Sys2Proof.Machine

/-- A register's value from its fields: lowest bit, width, value (R7, R9). -/
def pack : List (Nat × Nat × Nat) → Nat
  | [] => 0
  | f :: fs => (f.2.2 % 2 ^ f.2.1) * 2 ^ f.1 + pack fs

/-- A signed field value of `w` bits. -/
def signedField (w : Nat) (v : Int) : Nat := (v % (2 ^ w : Nat)).toNat

/-- The nearest value of a signed field of `w` bits. -/
def clampSigned (w : Nat) (v : Int) : Int := max (-(2 ^ (w - 1) : Nat)) (min v ((2 ^ (w - 1) : Nat) - 1))

/-- Bits of `l` as a number, element `i` at bit `i`. -/
def bitsOf (l : List Bool) : Nat := l.foldr (fun b n => b2n b + 2 * n) 0

/-- Compute die of a physical core (R17). -/
def dieOf (phys : Nat) : Nat := phys / 160

namespace State

/-- LCNs in use (SIZE_CORES.lcn_count). -/
def lcns (s : State) : Nat := s.cores.length

/-- The core of LCN `n`. -/
def core? (s : State) (n : Nat) : Option Core := s.cores[n]?

/-- The job context `j`. -/
def job (s : State) (j : Nat) : Job := s.jobs.getD j Job.empty

/-- LCNs of the lead cores with their indices. -/
def leadLcn (s : State) (i : Nat) : Option Nat := s.cores.findIdx? fun c => c.lead && c.leadIndex == i

/-- Cores of die `d`. -/
def dieCount (s : State) (d : Nat) : Nat := (s.cores.filter fun c => dieOf c.phys == d).length

/-- HBM stack capacity of the grade in GiB (R231). -/
def stackGib (s : State) : Nat := if s.fuses.tk9620 then 36 else 48

/-- DDR5 channels of the grade (R3). -/
def dchPresent (s : State) (k : Nat) : Bool := decide (k < 16) && (!s.fuses.tk9620 || decide (k % 8 < 6))

/-- Capture engines are fused in (R3). -/
def capturePresent (s : State) : Bool := !s.fuses.tk9620

/-- The stop of a job's snapshot is under way, cells on die `d` (R480). -/
def stopCap (s : State) (d : Nat) : Bool :=
  (s.jobs.zipIdx).any fun j => j.1.snap.stop &&
    s.cores.any fun c => c.job == some j.2 && dieOf c.phys == d

/-- The power demand of a die, held at 12 during a snapshot stop (R477, R480). -/
def powerLevel (s : State) (d : Nat) : Nat := if s.stopCap d then min 12 s.power.level else s.power.level

/-- The thermal demand of a die, held likewise. -/
def thermalLevel (s : State) (d : Nat) : Nat :=
  let l := s.power.thermal.getD d 0
  if s.stopCap d then min 12 l else l

/-- The dip demand of a die (R479). -/
def dipLevel (s : State) (d : Nat) : Nat := s.power.dip.getD d 0

/-- The skip level of a die (R477). -/
def skipLevel (s : State) (d : Nat) : Nat := max (s.powerLevel d) (max (s.thermalLevel d) (s.dipLevel d))

/-- Mean package power (R474; log entry 16 for fewer than 100 samples). -/
def powerNow (s : State) : Nat :=
  if s.power.samples.isEmpty then 0 else s.power.samples.foldl (· + ·) 0 / s.power.samples.length

/-- Hottest sensor of sensors `lo` to `lo + n - 1` (R491). -/
def hottest (s : State) (lo n : Nat) : Int :=
  match (s.power.temps.drop lo).take n with
  | [] => 0
  | t :: ts => ts.foldl max t

/-- A command is armed and awaits its release: a JOB_RESUME restores its cells meanwhile (R340, R388). -/
def awaits (s : State) (o : Out) : Bool :=
  o.phase == .armed || (o.phase == .placing && o.cmd == .jobResume && o.h.rt.any fun t => decide (s.now < t))

/-- Commands armed and awaiting release (R340). -/
def armed (s : State) : List Out := s.outs.filter s.awaits

/-- DEVICE_INFO_BASE (R34). -/
def infoReg (s : State) (off : Nat) : Nat :=
  let share (l : List Nat) : Nat := pack ((l.zipIdx).map fun x => (8 * x.2, 6, x.1))
  let leadField (i : Nat) : Nat :=
    match s.leadLcn i with
    | some n => pack [(0, 10, n), (15, 1, 1)]
    | none => 0
  if off = 0 then pack [(0, 16, 0x4B54), (16, 8, if s.fuses.tk9620 then 0x20 else 0x40), (24, 8, s.fuses.stepping)]
  else if off = 0x08 then pack [(0, 4, if s.fuses.tk9620 then 5 else 15), (4, 2, if s.fuses.tk9620 then 0 else 3), (6, 8, 0xFF), (14, 1, 1)]
  else if off = 0x10 then bitsOf ((List.range 36).map (linkPresent s.fuses.tk9620))
  else if off = 0x18 then
    pack [(0, 16, bitsOf ((List.range 16).map s.dchPresent)), (16, 16, bitsOf (s.memReg.chans.map (·.populated))), (32, 1, b2n s.memReg.baseValid)]
  else if off = 0x20 then
    pack [(0, 16, s.lcns), (16, 8, s.dieCount 0), (24, 8, s.dieCount 1), (32, 8, s.dieCount 2), (40, 8, s.dieCount 3),
      (48, 5, (s.cores.filter (·.lead)).length)]
  else if off = 0x28 then
    pack [(0, 32, if s.fuses.tk9620 then 442368 else 589824), (32, 31, s.memReg.fwHeld), (63, 1, b2n s.memReg.fwHeldValid)]
  else if off = 0x30 then pack [(0, 32, s.memReg.baseTotal)]
  else if off = 0x38 then pack [(0, 32, s.availGen)]
  else if 0x40 ≤ off && off ≤ 0x80 then bitsOf (((s.cores.drop (8 * (off - 0x40))).take 64).map (·.avail))
  else if 0x88 ≤ off && off ≤ 0xA0 then
    let j := (off - 0x88) / 8
    pack ((List.range 4).map fun i => (16 * i, 16, leadField (4 * j + i)))
  else if off = 0xA8 then share s.flueCore
  else if off = 0xB0 then share s.fluePort
  else 0

/-- MEM_REG_BASE (R234). -/
def memoryReg (s : State) (off : Nat) : Nat :=
  let m := s.memReg
  if off = 0 then pack [(0, 9, m.hostGib), (16, 32, m.tieredMib), (63, 1, b2n m.mapValid)]
  else if off = 8 then pack [(0, 32, m.heartUsable), (32, 4, (m.hbms.filter (·.inUse)).length)]
  else if off = 0x10 then pack [(0, 4, m.rate), (4, 5, (m.chans.filter (·.inUse)).length), (16, 9, m.chanGib)]
  else if off = 0x18 then m.heartEcc
  else if off = 0x20 then m.baseEcc
  else if off = 0x28 then m.poisonCount
  else if off = 0x30 then m.poisonLast
  else if 0x40 ≤ off && off ≤ 0xB8 then
    let k := (off - 0x40) / 8
    let c := m.chans.getD k ⟨false, false, 0, 0, 0⟩
    pack [(0, 1, b2n (s.dchPresent k)), (1, 1, b2n c.populated), (2, 1, b2n c.inUse), (3, 2, c.ranks), (8, 9, c.gib), (32, 32, c.corrected)]
  else if 0xC0 ≤ off && off ≤ 0x118 then
    let k := (off - 0xC0) / 8
    let h := m.hbms.getD k ⟨false, false, 0, false⟩
    pack [(0, 1, b2n h.inUse), (1, 1, b2n h.failed), (8, 8, s.stackGib), (32, 32, h.corrected)]
  else 0

end State

/-- CORE_STATE.state (R68): a wait that is not satisfied, of whichever engine, shows as WAITING (R198; log entry 59). -/
def Core.stateCode (c : Core) : Nat :=
  match c.cpu.st with
  | .idle => 0
  | .running => if c.cpu.waiting || c.cpu.waits.any (·.wakeAt.isNone) then 2 else 1
  | .stopped => 3
  | .saving => 4
  | .fenced => 5

/-- EVT_CNT `n` as a read in this cycle returns it (R422, R426). -/
def Core.evtRead (c : Core) (n : Nat) : Nat :=
  if c.obs.resetCycle = c.cpu.cycle && c.obs.resetMask.testBit n then c.obs.prev.getD n 0 else c.obs.cnt.getD n 0

/-- A register of a core block (R68, R206, R291, R446). -/
def Core.reg (c : Core) (lcn off : Nat) : Nat :=
  let u := c.cpu
  let w (e : Nat) : Option WaitRec := u.waits.find? fun x => x.eng == e
  let sem (e : Nat) : Nat := match w e with
    | some x => x.sem
    | none => 0
  let resident := c.job.isSome
  if off = 0 then pack [(0, 10, lcn), (10, 1, b2n c.lead), (11, 4, c.leadIndex)]
  else if off = 8 then
    pack [(0, 3, c.stateCode), (3, 3, c.job.getD 0), (6, 1, b2n resident), (8, 14, u.lastPc), (22, 3, u.held)]
  else if off = 0x10 then pack [(0, 8, u.flt.code), (8, 14, u.flt.pc), (22, 2, u.flt.slot), (24, 4, u.flt.unit), (28, 1, b2n u.flt.valid)]
  else if off = 0x18 then pack [(0, 1, b2n u.ovf), (1, 1, b2n u.passOverrun)]
  else if off = 0x20 then pack [(0, 1, b2n u.banked), (1, 7, u.rafDepth)]
  else if off = 0x28 then pack [(0, 11, (c.dma.reqs.filter fun r => !r.queued).length), (16, 7, c.dma.q.length)]
  else if off = 0x30 then c.pfDropped
  else if off = 0x38 then c.bankSat
  else if off = 0x40 then pack [(0, 32, c.eccCorrected), (32, 4, c.eccLast)]
  else if 0x48 ≤ off && off ≤ 0x58 then
    let k := (off - 0x48) / 8
    pack ((List.range 16).map fun j => (3 * j, 3, u.owners.getD (16 * k + j) 0))
  else if off = 0x60 then
    if resident then
      pack [(0, 1, b2n (w engSeq).isSome), (1, 1, b2n u.seqTime.isSome), (2, 1, b2n (w engArr).isSome), (3, 1, b2n (w engVec).isSome),
        (4, 1, b2n (w engFsd).isSome), (8, 6, sem engSeq), (16, 6, sem engArr), (24, 6, sem engVec), (32, 6, sem engFsd),
        (48, 16, match w engSeq with
          | some x => x.target
          | none => 0)]
    else 0
  else if off = 0x68 then pack [(0, 8, c.dma.tracked.length), (8, 7, 64 - c.dma.bufs.length), (15, 1, b2n c.dma.closed)]
  else if off = 0x70 then
    pack [(0, 16, c.dma.failLast.itemId), (16, 8, c.dma.failLast.status), (24, 1, b2n c.dma.failLast.valid), (32, 32, c.dma.failLast.units)]
  else if 0x80 ≤ off && off ≤ 0xD8 then
    if resident then
      let k := (off - 0x80) / 8
      pack ((List.range 4).map fun j => (16 * j, 16, u.sem (4 * k + j)))
    else 0
  else if 0x100 ≤ off && off ≤ 0x178 then c.evtRead ((off - 0x100) / 8)
  else if off = 0x180 then c.obs.rf
  else if 0x188 ≤ off && off ≤ 0x1A0 then
    let k := (off - 0x188) / 8
    pack ((List.range 4).map fun j => (16 * j, 16, c.obs.sel.getD (4 * k + j) 0))
  else if off = 0x1A8 then c.obs.dropped
  else 0

namespace State

/-- TIME_REG_BASE (R343). Before the one step to the parent's or the source's value the device has no fabric time, and TIME_NOW reads 0 as in OFF
(R325; log entry 38). -/
def timeReg (s : State) (off : Nat) : Nat :=
  let t := s.time
  if off = 0 then (if t.stepped then s.now % 2 ^ 64 else 0)
  else if off = 8 then
    pack [(0, 3, t.state), (3, 2, t.role), (5, 1, b2n t.valid), (6, 1, b2n t.srcLost), (7, 7, t.hops), (14, 6, t.parent)]
  else if off = 0x10 then
    pack [(0, 2, s.fab.source), (2, 1, b2n t.srcLocked), (3, 1, b2n t.slewing), (32, 32, signedField 32 (clampSigned 32 t.srcOffset))]
  else if off = 0x18 then pack [(0, 32, signedField 32 (clampSigned 32 t.offsetPs)), (32, 16, signedField 16 (clampSigned 16 t.rateAdj))]
  else if off = 0x20 then t.late
  else if off = 0x28 then pack [(0, 11, s.armed.length)]
  else if 0x100 ≤ off && off ≤ 0x218 then
    match s.links[(off - 0x100) / 8]? with
    | some l => if l.state = 7 then 0 else pack [(0, 24, l.delayPs), (24, 1, b2n (64 ≤ l.delayCount))]
    | none => 0
  else 0

/-- A link block (R323). -/
def linkReg (s : State) (n off : Nat) : Nat :=
  match s.links[n]? with
  | some l =>
    if off = 0 then pack [(0, 4, l.state), (4, 4, l.failCode), (8, 8, l.retrains), (16, 1, b2n (linkPresent s.fuses.tk9620 n))]
    else if off = 8 then pack [(0, 3, l.group)]
    else if off = 0x10 then
      pack [(0, 5, l.peer.x), (5, 5, l.peer.y), (10, 4, l.peer.z), (14, 6, l.peer.link), (20, 1, b2n l.peer.valid), (32, 32, l.peer.serial)]
    else if off = 0x18 then l.fecCorr
    else if off = 0x20 then l.fecUncorr
    else if off = 0x28 then l.crcErr
    else if off = 0x30 then l.replay
    else 0
  | none => 0

/-- The fabric block (R323). -/
def fabricReg (s : State) (off : Nat) : Nat :=
  let f := s.fab
  if off = 0 then pack [(0, 5, f.x), (5, 5, f.y), (10, 4, f.z), (14, 1, b2n f.valid)]
  else if off = 8 then
    pack [(0, 6, f.dx), (6, 6, f.dy), (12, 5, f.dz), (17, 1, b2n f.wx), (18, 1, b2n f.wy), (19, 1, b2n f.wz), (20, 1, b2n f.valid)]
  else if off = 0x10 then pack [(0, 6, s.shareColl), (8, 6, s.shareBulk)]
  else if off = 0x18 then s.unreachCnt
  else if off = 0x20 then s.escape
  else 0

/-- The block of collective engine `e` (R323). -/
def collReg (s : State) (e off : Nat) : Nat :=
  match s.engines[e]? with
  | some g =>
    let asks (c : Coll) : Bool := let k := fieldAt c.raw 6 1; if k = 0xFF then !g.failed else k == e
    let mine := s.colls.filter fun c => if c.engines.isEmpty then asks c else c.engines.contains e
    if !g.present then 0
    else if off = 0 then pack [(0, 1, 1), (1, 4, (mine.filter fun c => c.phase == .running || c.phase == .notifying).length),
      (5, 7, (mine.filter fun c => c.phase == .accepted || c.phase == .deferred || c.phase == .released).length)]
    else if off = 8 then g.count
    else if off = 0x10 then
      pack [(0, 8, g.failLast.status), (8, 3, g.failLast.op), (11, 3, g.failLast.job), (14, 1, b2n g.failLast.valid), (32, 32, g.failLast.tag)]
    else 0
  | none => 0

/-- DEV_CNT `n` as a read now returns it (R427). -/
def devRead (s : State) (n : Nat) : Nat :=
  if s.dev.resetTime = s.now && s.dev.resetMask.testBit n then s.dev.prev.getD n 0 else s.dev.cnt.getD n 0

/-- Captures running on an engine (R447). -/
def capturesOn (s : State) (e : Nat) : Nat :=
  (s.jobs.flatMap fun j => j.caps.filter fun c => c.phase == .running && c.onEngine == e).length

/-- OBS_REG_BASE (R447). -/
def obsReg (s : State) (off : Nat) : Nat :=
  if off < 0x800 then s.devRead (off / 8)
  else if off < 0x820 then s.dev.rf.getD ((off - 0x800) / 8) 0
  else if 0x1000 ≤ off && off < 0x1200 then
    let k := (off - 0x1000) / 8
    pack ((List.range 4).map fun j => (16 * j, 16, s.dev.sel.getD (4 * k + j) 0))
  else if 0x2000 ≤ off && off < 0x2180 then
    match s.trcs[(off - 0x2000) / 0x40]? with
    | some t =>
      let r := (off - 0x2000) % 0x40
      if r = 0 then pack [(0, 2, t.mode), (2, 2, t.state), (4, 4, t.post), (16, 13, t.sizeMib)]
      else if r = 8 then t.base
      else if r = 0x10 then t.next
      else if r = 0x18 then
        (match t.trig with
         | some q => pack [(0, 63, q), (63, 1, 1)]
         | none => 0)
      else if r = 0x20 then t.dropped
      else 0
    | none => 0
  else if off = 0x3000 || off = 0x3008 then
    let n := (off - 0x3000) / 8
    if s.capturePresent then
      let c := s.capEng.getD n ⟨false, 0⟩
      pack [(0, 1, 1), (1, 3, s.capturesOn n), (4, 1, b2n c.failed), (16, 48, c.done)]
    else 0
  else if off = 0x3100 then s.ash.next - 1
  else if off = 0x3108 then s.ash.oldest
  else if off = 0x3110 then pack [(0, 13, s.ash.next - 1 - s.ash.flashed), (16, 32, s.ash.suppressed)]
  else if off = 0x3118 then s.ash.nonce % 2 ^ 64
  else if off = 0x3120 then (s.ash.nonce / 2 ^ 64) % 2 ^ 32
  else if 0x3200 ≤ off && off ≤ 0x3218 then s.moveAborted.getD ((off - 0x3200) / 8) 0
  else 0

/-- POWER_REG_BASE (R491). -/
def powerReg (s : State) (off : Nat) : Nat :=
  let p := s.power
  if off = 0 then pack [(0, 16, p.limit), (16, 16, envelopeOf s.fuses.tk9620), (32, 1, b2n p.unmet)]
  else if off = 8 then pack [(0, 16, s.powerNow), (16, 16, p.samples.foldl max 0)]
  else if off = 0x10 then
    pack ((List.range 4).map fun d => (4 * d, 4, s.skipLevel d)) +
      pack ((List.range 4).map fun d => (16 + 3 * d, 3, pack [(0, 1, b2n (s.powerLevel d != 0)), (1, 1, b2n (s.thermalLevel d != 0)),
        (2, 1, b2n (s.dipLevel d != 0))])) +
      pack [(28, 1, b2n ((List.range 4).any s.stopCap))]
  else if off = 0x18 then pack ((List.range 4).map fun d => (16 * d, 16, signedField 16 (s.hottest (16 * d) 16)))
  else if off = 0x20 then pack [(0, 16, signedField 16 (s.hottest 64 4)), (16, 16, signedField 16 (s.hottest 68 4))]
  else if off = 0x28 then pack [(0, 11, p.warn), (16, 11, p.dipped)]
  else if off = 0x30 then p.dipCount
  else 0

/-- Seconds left on the confirm watchdog, a part of a second counting as one (R468; log entry 16). -/
def confirmLeft (s : State) : Nat :=
  match s.fw.confirmDog with
  | some t => ceilDiv (t - s.now) 1000000000
  | none => 0

/-- FW_REG_BASE (R468). -/
def fwReg (s : State) (off : Nat) : Nat :=
  let f := s.fw
  if off = 0 then
    pack [(0, 3, f.stage), (3, 1, b2n f.trial), (4, 2, f.attempts), (6, 1, b2n f.fallback), (7, 1, b2n f.strap), (8, 4, f.cause),
      (12, 4, f.staging), (16, 8, f.check), (24, 10, s.confirmLeft)]
  else if off = 8 then pack [(0, 32, f.actVersion), (32, 1, f.actSlot), (33, 1, b2n f.actVerified)]
  else if off = 0x10 then pack [(0, 32, f.prevVersion), (32, 1, f.prevSlot), (33, 1, b2n f.prevVerified)]
  else if off = 0x18 then pack [(0, 32, f.stgVersion), (32, 17, f.pages.length)]
  else if off = 0x20 then pack [(0, 32, f.bootCount)]
  else if off = 0x28 then pack [(0, 2, s.fuses.revoked), (2, 2, s.fuses.programmed)]
  else if off = 0x30 then fieldAt s.fuses.keyHash0 0 8
  else if off = 0x38 then fieldAt s.fuses.keyHash1 0 8
  else 0

/-- The value of the register at a naturally aligned address of register space (R209); reserved addresses read 0 (R9). -/
def regVal (s : State) (a : Nat) : Nat :=
  if a % 8 ≠ 0 then 0
  else if 0x1000 ≤ a && a < 0x2000 then s.infoReg (a - 0x1000)
  else if 0x2000 ≤ a && a < 0x3000 then s.memoryReg (a - 0x2000)
  else if 0x1000000 ≤ a && a < 0x1400000 then
    (match s.core? ((a - 0x1000000) / 0x1000) with
     | some c => c.reg ((a - 0x1000000) / 0x1000) (a % 0x1000)
     | none => 0)
  else if 0x2000000 ≤ a && a < 0x2100000 then s.timeReg (a - 0x2000000)
  else if 0x2100000 ≤ a && a < 0x2180000 then s.linkReg ((a - 0x2100000) / 0x1000) (a % 0x1000)
  else if 0x2180000 ≤ a && a < 0x2200000 then s.fabricReg (a - 0x2180000)
  else if 0x2200000 ≤ a && a < 0x2300000 then s.collReg ((a - 0x2200000) / 0x1000) (a % 0x1000)
  else if 0x2300000 ≤ a && a < 0x2400000 then s.obsReg (a - 0x2300000)
  else if 0x2400000 ≤ a && a < 0x2500000 then s.powerReg (a - 0x2400000)
  else if 0x2500000 ≤ a && a < 0x2600000 then s.fwReg (a - 0x2500000)
  else 0

/-- Replaces the core of LCN `n` by `f` of it. -/
def modCore (s : State) (n : Nat) (f : Core → Core) : State := { s with cores := modAt s.cores n f }

/-- Replaces job context `j` by `f` of it. -/
def modJob (s : State) (j : Nat) (f : Job → Job) : State := { s with jobs := modAt s.jobs j f }

/-- Replaces link `n` by `f` of it. -/
def modLink (s : State) (n : Nat) (f : Link → Link) : State := { s with links := modAt s.links n f }

/-- What a read of a core register changes: EVT_RF clears, and a counter read in its reset cycle sets its bit of EVT_RF (R426). -/
def readCore (off : Nat) (c : Core) : Core :=
  if off = 0x180 then { c with obs := { c.obs with rf := 0 } }
  else if 0x100 ≤ off && off ≤ 0x178 then
    let n := (off - 0x100) / 8
    if c.obs.resetCycle = c.cpu.cycle && c.obs.resetMask.testBit n && !(c.obs.rf.testBit n)
    then { c with obs := { c.obs with rf := c.obs.rf + 2 ^ n } } else c
  else c

/-- What a read of an observation register changes (R426, R427). -/
def readObs (s : State) (off : Nat) : State :=
  if 0x800 ≤ off && off < 0x820 then { s with dev := { s.dev with rf := s.dev.rf.set ((off - 0x800) / 8) 0 } }
  else if off < 0x800 then
    let n := off / 8
    let w := s.dev.rf.getD (n / 64) 0
    if s.dev.resetTime = s.now && s.dev.resetMask.testBit n && !(w.testBit (n % 64))
    then { s with dev := { s.dev with rf := s.dev.rf.set (n / 64) (w + 2 ^ (n % 64)) } } else s
  else s

/-- What a read of the register at `a` changes (R8, R426). -/
def regTouch (s : State) (a : Nat) : State :=
  if a % 8 ≠ 0 then s
  else if 0x1000000 ≤ a && a < 0x1400000 then s.modCore ((a - 0x1000000) / 0x1000) (readCore (a % 0x1000))
  else if 0x2300000 ≤ a && a < 0x2400000 then s.readObs (a - 0x2300000)
  else s

/-- A register block stands at the address (R209). -/
def regBacked (a : Nat) : Bool := (0x1000 ≤ a && a < 0x3000) || (0x1000000 ≤ a && a < 0x1400000) || (0x2000000 ≤ a && a < 0x2600000)

/-- `n` registers from `a` on are read one after the other: what each read changes shows to the next (R8, R10, R206, R426). -/
def readWords (s : State) (a n : Nat) : State × List Nat :=
  (List.range n).foldl (fun x i => (x.1.regTouch (a + 8 * i), x.2 ++ [x.1.regVal (a + 8 * i)])) (s, [])

/-- `n` bytes of register space from `a` on, by one access of 8 bytes for each register; the part of a register that an access of another width or
alignment would read is 0 (R11, R210; log entry 57). -/
def regBytes (s : State) (a n : Nat) : State × List Byte :=
  let lead := min n ((8 - a % 8) % 8)
  let whole := (n - lead) / 8
  let x := s.readWords (a + lead) whole
  (x.1, List.replicate lead 0 ++ x.2.flatMap (leBytes 8) ++ List.replicate (n - lead - 8 * whole) 0)

end State

end Sys2Proof.Machine
end

