-- ==== Sys2Proof/Machine/Ops.lean ====
section
/-! DEFINITION. The named operations over the device: free values, counters, trace, the Ash log, the address map, poison, and completion rings. -/

namespace Sys2Proof.Machine

/-- A 64-bit register of count and epoch counts on (R422). -/
def bump64 (x k : Nat) : Nat := (x + k) % 2 ^ 64

namespace State

/-- Takes a seed for the free values of one meaning (log entry 1). -/
def seeded (s : State) : State := { s with free := s.free + 1 }

/-- Fabric time is at a tick boundary (R326). -/
def onTick (s : State) : Bool := s.now % Config.tickNs == 0

/-- A device counter that a selection code names counts event `e` of instance `i` (R427). -/
def devHit (code e i : Nat) : Bool :=
  code / 256 == e && (code % 256 == i || (code % 256 == 0xFF && (e == 5 || e == 6 || e == 7 || e == 8 || e == 9 || e == 0xB)))

/-- Counts `n` events `e` of instance `i` in every device counter that selects them (R427). -/
def devCount (s : State) (e i n : Nat) : State :=
  { s with dev := { s.dev with cnt := (s.dev.cnt.zipIdx).map fun c => if devHit (s.dev.sel.getD c.2 0) e i then bump64 c.1 n else c.1 } }

end State

/-- Counts `n` events of selection code `code` on a core (R423). -/
def Core.count (code n : Nat) (c : Core) : Core :=
  if n = 0 then c
  else { c with obs := { c.obs with cnt := (c.obs.cnt.zipIdx).map fun x => if c.obs.sel.getD x.2 0 == code then bump64 x.1 n else x.1 } }

/-- Fields of a trace record before its kind-specific bytes (R431). -/
def traceRec (time kind : Nat) (valid : Bool) (lcn unit : Nat) (fields : List (Nat × Nat × Nat)) : List Byte :=
  record 32 ([(0, 8, time), (8, 1, kind), (9, 1, b2n valid), (10, 2, lcn + 1024 * unit)] ++ fields)

namespace State

/-- The regions of the address map (R207, R211). -/
inductive Region where
  | reg (a : Nat)
  | window (lcn off : Nat)
  | pcie (a : Nat)
  | host
  | heart
  | tiered (blk : Nat)
  | bad
  deriving DecidableEq, Repr

/-- The backed areas of the firmware heart window, but for its trace buffers: base and size (R220). -/
def heartAreas (s : State) : List (Nat × Nat) :=
  [(0x0C0000000000, 0x100000), (0x0C0E00000000, 0x40000000), (0x0C0F00000000, 0x200000)] ++
    ((List.range 8).map fun j => (0x0C0100000000 + 0x60000000 * j, 0x280000 * s.lcns)) ++
    ((s.trcs.zipIdx).map fun t => (0x0C0800000000 + 0x100000000 * t.2, t.1.sizeMib * 0x100000))

/-- The region in which a device address lies; an address that nothing backs is `bad` (R207, R208, R211). -/
def region (s : State) (a : Nat) : Region :=
  if a < 0x100000000 then .reg a
  else if a < 0x200000000 then
    let lcn := (a - 0x100000000) / 0x400000
    let off := a % 0x400000
    match s.core? lcn with
    | some c => if off < 0x200000 || (c.lead && off < 0x210000) then .window lcn off else .bad
    | none => .bad
  else if 0x040000000000 ≤ a && a < 0x050000000000 then .pcie a
  else if 0x080000000000 ≤ a && a < 0x090000000000 && a < 0x080000000000 + s.memReg.hostGib * 0x40000000 then .host
  else if 0x0C0000000000 ≤ a && a < 0x0C8000000000 && s.memReg.mapValid && s.heartAreas.any (fun r => r.1 ≤ a && a < r.1 + r.2) then .heart
  else if 0x100000000000 ≤ a && a < 0x180000000000 then .tiered ((a - 0x100000000000) / 65536)
  else .bad

/-- First address of a block of the tiered range (R212). -/
def blkAddr (b : Nat) : Nat := 0x100000000000 + 65536 * b

/-- The directory's record of a block that is mapped or holds an image (R238). -/
def blk? (s : State) (b : Nat) : Option Blk := s.blks.find? fun x => x.idx == b

/-- A block is mapped (R238). -/
def mapped (s : State) (b : Nat) : Bool :=
  match s.blk? b with
  | some x => x.state != .unmapped
  | none => false

/-- Replaces the record of a block by `f` of it. -/
def modBlk (s : State) (b : Nat) (f : Blk → Blk) : State := { s with blks := s.blks.map fun x => if x.idx == b then f x else x }

/-- The object that holds a block (R235). -/
def objOf (s : State) (b : Nat) : Option Obj := s.objs.find? fun o => o.first ≤ b && b < o.first + o.count

/-- An address lies in a poisoned block (R228). -/
def poisoned (s : State) (a : Nat) : Bool :=
  match s.region a with
  | .tiered b => (match s.blk? b with
    | some x => x.poisoned
    | none => false)
  | _ => s.poison.contains (a / 65536)

/-- A stack in use, the `k`-th in a fixed order, among the stacks a list names. -/
def stackIn (s : State) (among : List Nat) (k : Nat) : Nat :=
  let use := among.filter fun i => (s.memReg.hbms.getD i ⟨false, false, 0, false⟩).inUse
  use.getD (k % max 1 use.length) 0

/-- The stack that holds a block of the firmware heart window: beside its die for a trace buffer of a compute die,
beside the die of the core whose state it holds for a save area, else one the firmware chooses
(R495; log entry 17). -/
def heartStack (s : State) (a : Nat) : Nat :=
  let b := a / 65536
  let d := (a - 0x0C0800000000) / 0x100000000
  let j := (a - 0x0C0100000000) / 0x60000000
  let n := ((a - 0x0C0100000000) % 0x60000000) / 0x280000
  let save := ((s.core? (s.mem.readLE (0x0C0100000000 + 0x60000000 * j + 0x280000 * n + 0x272002) 2)).map fun c => dieOf c.phys).getD 0
  if 0x0C0800000000 ≤ a && a < 0x0C0C00000000 then s.stackIn [3 * d, 3 * d + 1, 3 * d + 2] (Config.free 0 61 b)
  else if 0x0C0100000000 ≤ a && a < 0x0C0400000000 then s.stackIn [3 * save, 3 * save + 1, 3 * save + 2] (Config.free 0 61 b)
  else s.stackIn (List.range 12) (Config.free 0 61 b)

/-- Channels of the stripe set, in ascending number (R216). -/
def stripes (s : State) : List Nat := (List.range 16).filter fun k => (s.memReg.chans.getD k ⟨false, false, 0, 0, 0⟩).inUse

/-- Tier and slice of the byte at a device address: 0 heart, 1 base (R215, R216, R495). -/
def sliceOf (s : State) (a : Nat) : Nat × Nat :=
  let j := (a % 65536) / 4096
  let base (rel : Nat) : Nat × Nat :=
    let l := s.stripes
    (1, l.getD ((j + rel % max 1 l.length) % max 1 l.length) 0)
  match s.region a with
  | .tiered b =>
    (match s.blk? b with
     | some x => if x.tier = 0 then (0, 16 * x.stack + (j + b % 16) % 16) else base b
     | none => (0, 0))
  | .host => base ((a - 0x080000000000) / 65536)
  | _ => (0, 16 * s.heartStack a + (j + ((a - 0x0C0000000000) / 65536) % 16) % 16)

/-- Counts bytes that a slice reads or writes, in 64-byte units; a base slice's bytes cross its port die's attachment in a class of R26
(R29, R427). -/
def countAt (s : State) (x : Nat × Nat) (n : Nat) (store : Bool) (cls : Nat) : State :=
  let u := ceilDiv n 64
  let s := s.devCount ((if x.1 = 0 then 5 else 7) + b2n store) x.2 u
  if x.1 = 0 then s else s.devCount (if store then 1 else 2) (8 * (x.2 / 8) + cls) u

/-- Counts a demand request at an address. -/
def countSlice (s : State) (a n : Nat) (store : Bool) : State := s.countAt (s.sliceOf a) n store 0

/-- Counts bytes that an engine reads or writes, slice by slice, in its class; `dies` are the port dies of collective engines that share the traffic,
which crosses their attachments too (R26, R313, R427; log entry 65). -/
def countRange (s : State) (a n : Nat) (store : Bool) (cls : Nat) (dies : List Nat) : State :=
  let pages := (List.range (n / 4096 + 2)).map fun i => (a / 4096 + i) * 4096
  pages.foldl (fun s p =>
    let lo := max a p
    let hi := min (a + n) (p + 4096)
    if lo < hi then
      let t := s.countAt (s.sliceOf lo) (hi - lo) store cls
      (match dies[Config.free s.free 82 p % max 1 dies.length]? with
       | some d => t.devCount (if store then 2 else 1) (8 * d + cls) (ceilDiv (hi - lo) 64)
       | none => t)
    else s) s

/-- Records of a trace buffer (R429). -/
def trcCap (t : Trc) : Nat := t.sizeMib * 32768

/-- Records from the trigger on that a TRIGGER buffer keeps (R429). -/
def trcPost (t : Trc) : Nat := trcCap t * t.post / 16

/-- Byte address of the slot of sequence number `q` of die `d`'s buffer (R428, R429). -/
def trcAddr (t : Trc) (d q : Nat) : Nat := 0x0C0800000000 + 0x100000000 * d + 32 * (q % trcCap t)

/-- Places a record in its slot; the write is counted in class DEMAND, and one of a port die's writer crosses its attachment inward
(R427, R428, R432; log entry 57). -/
def trcStore (s : State) (d q : Nat) (t : Trc) (r : List Byte) : State :=
  let s := { s with mem := s.mem.write (trcAddr t d q) (r.take 12 ++ leBytes 4 q ++ r.drop 16) }.countRange (trcAddr t d q) 32 true 0 []
  if 4 ≤ d then s.devCount 1 (8 * (d - 4)) 1 else s

/-- The LOSS record of a stopped buffer (R431, R432). -/
def trcLoss (s : State) (t : Trc) : List Byte :=
  traceRec t.lossLast 6 s.time.valid 0x3FF 4 [(16, 4, t.lossCount), (24, 8, t.lossFirst)]

/-- The sequence number of the last slot of a buffer that is to stop: the LOSS record's (R429, R430). -/
def trcLast (t : Trc) : Option Nat :=
  if t.mode = 2 then some (t.base + trcCap t - 1)
  else match t.trig with
    | some q => if t.mode = 3 then some (q + trcPost t - 1) else none
    | none => none

/-- Stops a buffer that has come to its LOSS record (R429). -/
def trcEnd (s : State) (d : Nat) : State :=
  match s.trcs[d]? with
  | some t =>
    if trcLast t = some t.next then
      let s := s.trcStore d t.next t (s.trcLoss t)
      { s with trcs := s.trcs.set d { t with next := t.next + 1, state := 3 } }
    else s
  | none => s

/-- The writer of die `d` takes a record (R429, R432). -/
def trace (s : State) (d : Nat) (r : List Byte) : State :=
  match s.trcs[d]? with
  | some t =>
    if t.state = 0 then s
    else if t.state = 3 then
      let first := if t.lossCount = 0 then fieldAt r 0 8 else t.lossFirst
      { s with trcs := s.trcs.set d { t with dropped := bump64 t.dropped 1, lossCount := t.lossCount + 1, lossFirst := first,
                                             lossLast := fieldAt r 0 8, lossDirty := true } }
    else
      let s := s.trcStore d t.next t r
      ({ s with trcs := s.trcs.set d { t with next := t.next + 1 } }).trcEnd d
  | none => s

/-- A trigger reaches die `d`: source code 0-2 and its number (R430, R431). -/
def triggerDie (s : State) (src num d : Nat) : State :=
  match s.trcs[d]? with
  | some t =>
    if t.mode = 3 && t.state = 1 then
      let s := s.trcStore d t.next t (traceRec s.now 5 s.time.valid 0x3FF 4 [(16, 1, src), (24, 8, num)])
      ({ s with trcs := s.trcs.set d { t with next := t.next + 1, state := 2, trig := some t.next } }).trcEnd d
    else s
  | none => s

/-- A trigger of the dies in a list (R430). -/
def trigger (s : State) (src num : Nat) (dies : List Nat) : State := dies.foldl (fun s d => s.triggerDie src num d) s

/-- Every die code (R428). -/
def allDies : List Nat := [0, 1, 2, 3, 4, 5]

/-- The register snapshot of an Ash record: address and value of each listed register (R440, R442). -/
def ashRegs (s : State) (regs : List Nat) : List Byte := (regs.take 24).flatMap fun a => leBytes 8 a ++ leBytes 8 (s.regVal a)

/-- The bytes of an Ash record; `detail` gives fields by record byte (R440, R494). -/
def ashBytes (s : State) (code die unit supp : Nat) (detail : List (Nat × Nat × Nat)) (regs : List Nat) : List Byte :=
  let body := record 96 ([(0, 8, s.ash.next), (8, 8, if s.time.valid then s.now else 0), (16, 2, code), (18, 1, die),
      (19, 1, (regs.take 24).length), (20, 4, unit), (24, 4, s.fw.bootCount), (28, 4, supp)] ++ detail) ++
    bytesAt (s.ashRegs regs) 0 408
  body ++ leBytes 4 (crc32 body) ++ leBytes 4 0x4153484D

/-- The record that is written for a trigger which nothing suppresses (R439, R442). -/
def ashPut (s : State) (code die unit supp : Nat) (detail : List (Nat × Nat × Nat)) (regs : List Nat) : State :=
  let q := s.ash.next
  let trigs := (s.ash.trigs.filter fun t => !(t.code == code && t.die == die && t.unit == unit)) ++ [⟨code, die, unit, s.now, 0⟩]
  let mirror := s.ash.mirror ++ [(q, s.ashBytes code die unit supp detail regs)]
  let s := { s with ash := { s.ash with mirror := mirror.drop (mirror.length - 4096), next := q + 1, trigs } }
  s.trigger 2 q allDies

/-- A trigger of the Ash log: a record, or one more suppressed trigger (R442). -/
def ashWrite (s : State) (code die unit : Nat) (detail : List (Nat × Nat × Nat)) (regs : List Nat) : State :=
  match s.ash.trigs.find? fun t => t.code == code && t.die == die && t.unit == unit with
  | some t =>
    if code ≠ 0xF && s.now < t.time + 1000000 then
      { s with ash := { s.ash with
        suppressed := satAdd 32 s.ash.suppressed 1
        trigs := s.ash.trigs.map fun u => if u == t then { u with suppressed := u.suppressed + 1 } else u } }
    else s.ashPut code die unit t.suppressed detail regs
  | none => s.ashPut code die unit 0 detail regs

/-- Register addresses that the default snapshots of R442 name. -/
def regTimeNow : Nat := 0x2000000
def regTimeStatus : Nat := 0x2000008
def regTimeSource : Nat := 0x2000010
def regTimeOffset : Nat := 0x2000018
def regPoisonLast : Nat := 0x2030
def regPoisonCount : Nat := 0x2028
def regHeartEcc : Nat := 0x2018
def regBaseEcc : Nat := 0x2020
def regAshLast : Nat := 0x2303100
def regAshOldest : Nat := 0x2303108
def regAshStatus : Nat := 0x2303110

/-- Counts a corrected error at an address (R226, R234). -/
def eccCorrect (s : State) (a : Nat) : State :=
  let x := s.sliceOf a
  let m := s.memReg
  if x.1 = 0 then
    { s with memReg := { m with heartEcc := bump64 m.heartEcc 1
                                hbms := modAt m.hbms (x.2 / 16) fun h => { h with corrected := satAdd 32 h.corrected 1 } } }
  else
    { s with memReg := { m with baseEcc := bump64 m.baseEcc 1
                                chans := modAt m.chans x.2 fun c => { c with corrected := satAdd 32 c.corrected 1 } } }

/-- Writes the grid map (R262). -/
def writeMap (s : State) (j : Nat) : State :=
  let b := s.job j
  let gen := wrapAdd 32 b.mapGen 2
  let s := s.modJob j fun b => { b with mapGen := gen }
  let entry (c : Cell) : List Byte := leBytes 2 (pack [(0, 10, c.lcn), (14, 1, b2n c.lead), (15, 1, b2n c.valid)])
  let bytes := leBytes 4 gen ++ leBytes 1 b.gx ++ leBytes 1 b.gy ++ [0, 0] ++ b.cells.flatMap entry
  { s with mem := s.mem.write (0x0C0000010000 + 0x4000 * j) bytes }

/-- A poisoned save area loses its save: save_state 3, the cell lost (R402). -/
def loseSave (s : State) (a : Nat) : State :=
  let j := (a - 0x0C0100000000) / 0x60000000
  let n := ((a - 0x0C0100000000) % 0x60000000) / 0x280000
  if 0x0C0100000000 ≤ a && a < 0x0C0400000000 && (((s.job j).cells[n]?).map fun c => c.save.state) == some 2 then
    let s := s.modJob j fun b => { b with cells := modAt b.cells n fun c => { c with lost := true, valid := false, save := { c.save with state := 3 } } }
    { s with mem := s.mem.write (0x0C0100000000 + 0x60000000 * j + 0x280000 * n + 0x272000) [3] }.writeMap j
  else s

/-- Poisons the block of an address: source code of POISON_LAST (R228, R229). -/
def poisonAt (s : State) (a src : Nat) : State :=
  let x := s.sliceOf a
  let s1 := match s.region a with
    | .tiered b => s.modBlk b fun k => { k with poisoned := true }
    | _ => { s with poison := if s.poison.contains (a / 65536) then s.poison else s.poison ++ [a / 65536] }
  let m := s1.memReg
  let s2 := { s1 with memReg := { m with poisonCount := satAdd 32 m.poisonCount 1
                                         poisonLast := pack [(0, 36, a / 65536), (36, 2, src), (38, 1, x.1), (39, 8, x.2), (47, 1, 1)] } }
  let own := match s.region a with
    | .tiered b => (match s.objOf b with
      | some o => o.owner + 128
      | none => 0)
    | _ => 0
  (s2.loseSave a).ashWrite 1 (if x.1 = 0 then x.2 / 48 else if x.2 < 8 then 4 else 5) x.2
    [(32, 8, a / 65536 * 65536), (40, 1, src), (41, 1, x.1), (42, 2, x.2), (44, 1, own)]
    [regPoisonLast, regPoisonCount, regHeartEcc, regBaseEcc, if x.1 = 0 then 0x20C0 + 8 * (x.2 / 16) else 0x2040 + 8 * x.2]

/-- A demand access touches the block's tick of last access (R238). -/
def touchBlk (s : State) (b : Nat) : State := s.modBlk b fun x => { x with access := tickOf s.now }

/-- The moves that copy block `b` (R239). -/
def moveOf (s : State) (b : Nat) : Option Move := s.moves.find? fun m => m.block == b

/-- A demand write reaches the source of a moving block: the move is aborted, and its intents go back to their places (R241). -/
def abortMove (s : State) (b : Nat) : State :=
  match s.moveOf b with
  | some m =>
    if m.cow then s
    else
      let s := { s with moves := s.moves.filter fun x => x.block != b
                        intents := m.for_ ++ s.intents
                        moveAborted := modAt s.moveAborted m.mover fun n => bump64 n 1 }
      s.modBlk b fun x => { x with state := if x.tier = 0 then .heart else .base }
  | none => s

/-- The separation of a FROZEN block from its image: the home copy moves to a new frame and the image keeps the bytes (R242). -/
def cowSplit (s : State) (b tier stack : Nat) : State :=
  let old := s.mem.slice (blkAddr b) 65536
  (s.modBlk b fun x =>
    { x with state := if tier = 0 then .heart else .base, tier, stack,
             image := x.image.map fun i => { i with tier := x.tier, stack := x.stack, data := some old } }).devCount 0xA 0 1

/-- A window offset is backed on a core, or in the save area of a cell (R211, R288). -/
def backedOff (lead : Bool) (off len : Nat) : Bool := off + len ≤ 0x200000 || (lead && 0x200000 ≤ off && off + len ≤ 0x210000)

/-- Bytes at a window offset of a core (R211), as a read in the core's present cycle gets them (R50). -/
def windowRead (sd : Nat) (c : Cpu) (off n : Nat) : List Byte :=
  if off < 0x200000 then (c.viewDma sd (drawTag 13 c.cycle off)).readWrap scratchBytes off n else c.leadMem.readWrap leadBytes (off - 0x200000) n

/-- A TLD row read in the core's present cycle `x`, after a write in that cycle of the elements `was` (their old values) has made scratch `m`: each byte
is the old or the new one (R50). -/
def remix (sd x : Nat) (was : List Elem) (m : Memory) (p : Pend) : Pend :=
  match p.act with
  | .row es (some src) =>
    let at' (e : Elem) : Elem := { e with pos := (src * 8 + e.pos % 1024) % (scratchBytes * 8) }
    if p.due = x + 6 && es.any fun e => was.any fun w => w.overlaps (at' e) then
      let v := overlay scratchBytes sd (drawTag 15 x (p.due + src)) m was
      { p with act := .row (es.map fun e => if was.any fun w => w.overlaps (at' e) then { e with v := v.getBits scratchBytes (at' e).pos e.w } else e) (some src) }
    else p
  | _ => p

/-- Writes bytes at a window offset of a core (R211): a TLD row or a load of the same cycle may see the old or the new bytes (R50, R125). -/
def windowWrite (sd off : Nat) (bs : List Byte) (c : Cpu) : Cpu :=
  if off < 0x200000 then
    let was := oldElems scratchBytes c.scratch (byteElems scratchBytes off bs)
    let m := c.scratch.writeWrap scratchBytes off bs
    { c with scratch := m, dmaWas := c.dmaWas ++ was, pend := c.pend.map (remix sd c.cycle was m) }
  else
    { c with
      leadWas := c.leadWas ++ oldElems leadBytes c.leadMem (byteElems leadBytes (off - 0x200000) bs)
      leadMem := c.leadMem.writeWrap leadBytes (off - 0x200000) bs }

/-- Addresses at which `n` bytes from `a` begin and enter a further 64 KiB block. -/
def blockStarts (a n : Nat) : List Nat := a :: ((List.range (n / 65536 + 1)).map fun i => (a / 65536 + i + 1) * 65536).filter fun x => x < a + n

/-- Bytes at consecutive addresses that are read without a request of a core: by the firmware or an engine.  `none` when one of them cannot be
read (R208, R229, R361).  The wardens reach the scratch windows (R211). -/
def fwRead (s : State) (a n : Nat) : Option (List Byte) :=
  let ok (x : Nat) : Bool := match s.region x with
    | .host => !s.poisoned x
    | .heart => !s.poisoned x
    | .tiered b => s.mapped b && !s.poisoned x
    | .window t _ => ((s.core? t).map fun c => c.cpu.st != .fenced).getD false
    | _ => false
  if (blockStarts a n).all ok then
    some (match s.region a with
      | .window t off => ((s.core? t).map fun c => windowRead s.free c.cpu off n).getD []
      | _ => s.mem.read a n)
  else none

/-- A write reaches the block at address `x`: a move of it is aborted (R241); a FROZEN block is separated from its image, by the copy under way or
in a reserve frame (R242, R411; log entry 18).  Whether the write must wait for a frame. -/
def readyBlock (s : State) (x : Nat) : State × Bool :=
  match s.region x with
  | .tiered b =>
    let s := (s.abortMove b).touchBlk b
    (match s.blk? b with
     | some k =>
       if k.state == .frozen then
         (match s.moveOf b with
          | some m => (({ s with moves := s.moves.filter fun y => y.block != b, intents := m.for_ ++ s.intents }).cowSplit b m.tier m.stack, false)
          | none =>
            if 0 < s.reserve then (({ s with reserve := s.reserve - 1 }).cowSplit b 0 (s.stackIn (List.range 12) (Config.free s.free 63 b)), false)
            else
              let j := (k.image.map (·.job)).getD 8
              (s.modJob j fun y => { y with snap := { y.snap with cowLate := wrapAdd 32 y.snap.cowLate 1 } }, true))
       else (s, false)
     | none => (s, false))
  | _ => (s, false)

/-- Writes bytes at an address that can take them. -/
def putBytes (s : State) (a : Nat) (bs : List Byte) : State :=
  match s.region a with
  | .window t off => s.modCore t fun c => ({ c with cpu := windowWrite s.free off bs c.cpu }).count 13 (ceilDiv bs.length 64)
  | _ => { s with mem := s.mem.write a bs }

/-- The firmware or an engine writes bytes for software, which the firmware heart window does not take (R220); `none` when they cannot be written.
The part of a block that has no frame to go to waits (R411): whether there is one. -/
def fwPut (s : State) (a : Nat) (bs : List Byte) (ack : Option AckTo) : Option (State × Bool) :=
  if 0x0C0000000000 ≤ a && a < 0x0C8000000000 then none
  else match s.fwRead a bs.length with
  | none => none
  | some _ =>
    let part (x : Nat) : List Byte := (bs.drop (x - a)).take (65536 - x % 65536)
    let starts := blockStarts a bs.length
    let r := starts.foldl (fun (acc : State × List Nat) x => let q := acc.1.readyBlock x; (q.1, if q.2 then acc.2 ++ [x] else acc.2)) (s, [])
    if r.2.isEmpty then some (r.1.putBytes a bs, false)
    else
      let t := (starts.filter fun x => !r.2.contains x).foldl (fun s x => s.putBytes x (part x)) r.1
      some ({ t with stalled := t.stalled ++ r.2.map fun x => (x, part x, if some x = r.2.getLast? then ack else none) }, true)

/-- The same, where no other device waits for it. -/
def fwWrite (s : State) (a : Nat) (bs : List Byte) : Option State := (s.fwPut a bs none).map (·.1)

/-- Writes bytes where they can be written; a reply or record that cannot be written is lost (R349). -/
def tryWrite (s : State) (a : Nat) (bs : List Byte) : State := (s.fwWrite a bs).getD s

/-- Writes output piece by piece, a placement block at a time, until a byte cannot be written: what stands, and whether all of it does (R361). -/
def writeOut (s : State) : Nat → Nat → List Byte → State × Bool
  | 0, _, bs => (s, bs.isEmpty)
  | f + 1, a, bs =>
    if bs.isEmpty then (s, true)
    else
      let n := 65536 - a % 65536
      match s.fwWrite a (bs.take n) with
      | some s' => writeOut s' f (a + n) (bs.drop n)
      | none => (s, false)

/-- A little-endian field that the firmware reads; 0 where it cannot be read. -/
def fwField (s : State) (a n : Nat) : Nat := match s.fwRead a n with
  | some bs => leNat bs
  | none => 0

/-- The ring `n` in service (R344). -/
def ring? (s : State) (n : Nat) : Option Ring := s.rings.find? fun r => r.num == n

/-- Replaces ring `n` by `f` of it. -/
def modRing (s : State) (n : Nat) (f : Ring → Ring) : State := { s with rings := s.rings.map fun r => if r.num == n then f r else r }

/-- Entries of a completion ring that software has consumed (R345); a value outside what the ring can hold is a write into the ring (R13), and the ring
then counts as consumed, so that commands still execute (log entry 61). -/
def cmpCons (s : State) (r : Ring) : Nat :=
  let v := s.fwField (r.cmpBase + 8) 8
  if v ≤ r.cmpProd && r.cmpProd ≤ v + 2 ^ r.c then v else r.cmpProd

/-- Software writes `n` bytes from `a`: a completion ring it writes into, but for cmp_cons, gives unpredictable replies from then on (R13). -/
def spoilRings (s : State) (a n : Nat) : State :=
  let hit (r : Ring) : Bool :=
    let meets (x k : Nat) : Bool := a < x + k && x < a + n
    r.num < 62 && (meets r.cmpBase 8 || meets (r.cmpBase + 16) (48 + 32 * 2 ^ r.c))
  { s with rings := s.rings.map fun r => if hit r then { r with spoiled := true } else r }

/-- Free entries of a completion ring: neither written and unconsumed nor reserved (R348). -/
def ringRoom (s : State) (r : Ring) : Nat := 2 ^ r.c - (r.cmpProd - s.cmpCons r) - r.reserved

/-- Writes an entry, with the fabric time of the write, and advances cmp_prod, in class CONTROL (R26, R345, R347, R356); what stands in an entry of a ring
that software has written into is open (R13). -/
def putEntry (s : State) (n : Nat) (e : List Byte) : State :=
  match s.ring? n with
  | some r =>
    let at_ := r.cmpBase + 64 + 32 * (r.cmpProd % 2 ^ r.c)
    let e := e.take 24 ++ leBytes 8 s.now
    let e := if r.spoiled then (List.range 32).map fun i => BitVec.ofNat 8 (Config.free s.free (91 + 64 * r.cmpProd) i) else e
    let s := s.tryWrite at_ e
    let s := s.tryWrite r.cmpBase (leBytes 8 (r.cmpProd + 1))
    let s := (s.countRange at_ 32 true 4 []).countRange r.cmpBase 8 true 4 []
    s.modRing n fun r => { r with cmpProd := r.cmpProd + 1 }
  | none => s

/-- Writes a reply to the entry reserved for it; items_lost tells of records discarded since the last one (R348, R356). -/
def putReply (s : State) (n : Nat) (e : List Byte) : State :=
  match s.ring? n with
  | some r =>
    let flags : Byte := if r.lost then e.getD 3 0 ||| 2 else e.getD 3 0
    (s.putEntry n (e.set 3 flags)).modRing n fun r => { r with reserved := r.reserved - 1, lost := false }
  | none => s

/-- Held entries go to the ring while it has room; a reply has its own (R348). -/
def flushHeld (s : State) (n : Nat) : Nat → State
  | 0 => s
  | f + 1 =>
    match s.ring? n with
    | some r =>
      match r.held with
      | e :: rest =>
        if e.reply then flushHeld ((s.putReply n e.bytes).modRing n fun r => { r with held := rest }) n f
        else if 0 < s.ringRoom r then flushHeld ((s.putEntry n e.bytes).modRing n fun r => { r with held := rest }) n f else s
      | [] => s
    | none => s

/-- A datagram of the management port that carries an entry and any output behind the envelope of the command's datagram (R374). -/
def mgmtSend (s : State) (from_ : Nat × Nat × Nat) (bs : List Byte) : State :=
  let out := leBytes 2 0x5354 ++ [1, 0] ++ leBytes 4 from_.2.2 ++ bs
  { s with sent := .datagram from_.1 from_.2.1 out :: s.sent, mgmtSeen := (from_.1, from_.2.1, from_.2.2, out) :: s.mgmtSeen }

/-- An item record or a job event is written to ring `n`, held, or discarded; those of ring 63 leave in datagrams (R348, R374). `cmd` is the
command that a record belongs to. -/
def postRecord (s : State) (n : Nat) (from_ : Nat × Nat × Nat) (cmd : Option Nat) (e : List Byte) : State :=
  if n = 63 then s.mgmtSend from_ e
  else
    let s := s.flushHeld n 8192
    match s.ring? n with
    | some r =>
      if r.held.isEmpty && 0 < s.ringRoom r then s.putEntry n e
      else if (r.held.filter (!·.reply)).length < 4096 then s.modRing n fun r => { r with held := r.held ++ [⟨cmd, false, e⟩] }
      else (s.modRing n fun r => { r with lost := true }).devCount 0xE n 1
    | none => s

/-- A reply on one of the entries its command has reserved, after the records of the command that wait; `from_` is the device or the datagram
that sent the command on rings 62 and 63 (R348, R357, R373, R374). -/
def postReply (s : State) (n : Nat) (from_ : Nat × Nat × Nat) (cmd : Nat) (e : List Byte) (output : List Byte) : State :=
  if n = 62 then { s with peerReplies := (from_, e ++ output) :: s.peerReplies }
  else if n = 63 then s.mgmtSend from_ (e ++ output)
  else
    let s := s.flushHeld n 8192
    match s.ring? n with
    | some r =>
      if r.held.any fun h => h.cmd == some cmd then s.modRing n fun r => { r with held := r.held ++ [⟨some cmd, true, e⟩] }
      else s.putReply n e
    | none => s

/-- The record of a job event (R356, R359). -/
def jobEvent (s : State) (j code detail cell addr phys : Nat) : State :=
  let b := s.job j
  let tag := match b.startUid with
    | some u => (match s.outs.find? fun o => o.uid == u with
      | some o => o.h.tag
      | none => 0)
    | none => 0
  s.postRecord b.ring b.from_ none (record 32 [(0, 1, 2), (1, 1, code), (2, 1, detail), (4, 2, cell), (6, 1, b.ring), (7, 1, j + 128), (8, 4, tag),
    (12, 4, addr), (16, 8, phys), (24, 8, s.now)])

/-- The record of a DMA item (R278, R356). -/
def itemRecord (s : State) (j status reason itemId cell units missing : Nat) : State :=
  let b := s.job j
  s.postRecord b.ring b.from_ none (record 32 [(0, 1, 1), (1, 1, status), (2, 1, reason), (3, 1, 1), (6, 1, b.ring), (7, 1, j + 128), (8, 2, itemId),
    (10, 2, cell), (12, 4, units), (16, 8, missing), (24, 8, s.now)])

/-- Puts a record in a core's trace queue (R432). -/
def coreTrace (s : State) (n : Nat) (r : List Byte) : State :=
  match s.core? n with
  | some c =>
    if (s.trcs.getD (dieOf c.phys) Trc.reset).state = 0 then s
    else if c.obs.queue.length < 16 then s.modCore n fun c => { c with obs := { c.obs with queue := c.obs.queue ++ [r] } }
    else
      s.modCore n fun c => { c with obs := { c.obs with
        dropped := bump64 c.obs.dropped 1, run := c.obs.run + 1,
        runFirst := if c.obs.run = 0 then fieldAt r 0 8 else c.obs.runFirst, runLast := fieldAt r 0 8 } }
  | none => s

/-- Address of the save area of cell `n` of job `j` (R381). -/
def saveArea (j n : Nat) : Nat := 0x0C0100000000 + 0x60000000 * j + 0x280000 * n

/-- The job that holds a fabric job tag (R285, R373). -/
def jobOfTag (s : State) (tag : Nat) : Option Nat := s.jobs.findIdx? fun j => j.state != 0 && j.jobTag == tag

/-- Writes the job context record (R369). -/
def writeCtx (s : State) (j : Nat) : State :=
  let b := s.job j
  let tag := match b.startUid with
    | some u => (match s.outs.find? fun o => o.uid == u with
      | some o => o.h.tag
      | none => 0)
    | none => 0
  let gen := wrapAdd 32 b.ctxGen 2
  let s := s.modJob j fun b => { b with ctxGen := gen }
  let rec_ := record 64 [(0, 4, gen), (4, 1, b.state), (5, 1, b.priority), (6, 1, b.ring), (7, 1, b.flags), (8, 2, b.jobTag), (10, 1, b.gx),
    (11, 1, b.gy), (12, 4, (b.cells.filter (·.valid)).length), (16, 8, 0x0C0000010000 + 0x4000 * j), (24, 4, tag)]
  { s with mem := s.mem.write (0x0C0000000000 + 0x1000 * j) rec_ }

/-- A job context enters a state (R368, R369). -/
def setJobState (s : State) (j st : Nat) : State := (s.modJob j fun b => { b with state := st }).writeCtx j

end State

end Sys2Proof.Machine
end

