-- ==== Sys2Proof/Machine/CmdOps.lean ====
section
/-! DEFINITION. Replies of commands (R356, R357), the end of a command, and the stop of a job's cores as one shared operation (R378, R386,
R402). -/

namespace Sys2Proof.Machine

/-- The bytes of a reply (R356); `notify` is flag bit 2. -/
def replyEntry (now : Nat) (o : Out) (st rs count result : Nat) (notify : Bool) : List Byte :=
  let h := o.h
  record 32 [(0, 1, 0), (1, 1, st), (2, 1, rs), (3, 1, b2n o.records + 4 * b2n notify), (4, 2, o.cmd.opcode), (6, 1, h.ring),
    (7, 1, if o.cmd.namesJob then h.job + 128 else h.job), (8, 4, h.tag), (12, 4, count), (16, 8, result), (24, 8, now)]

namespace State

/-- An outstanding command. -/
def out? (s : State) (u : Nat) : Option Out := s.outs.find? fun o => o.uid == u

/-- Replaces an outstanding command by `f` of it. -/
def modOut (s : State) (u : Nat) (f : Out → Out) : State := { s with outs := s.outs.map fun o => if o.uid == u then f o else o }

/-- The first of two replies (R357). -/
def accept (s : State) (o : Out) : State := s.postReply o.h.ring o.from_ o.uid (replyEntry s.now o 1 0 0 0 false) []

/-- Removes a command with its final reply; ST_LATE stands for ST_OK when it took effect late (R339, R357). -/
def endOut (s : State) (o : Out) (st rs count result : Nat) (notify : Bool) (output : List Byte) : State :=
  let st := if o.late && st = 0 then 0x0B else st
  let s := s.postReply o.h.ring o.from_ o.uid (replyEntry s.now o st rs count result notify) output
  let hit := s.jobs.zipIdx.filter fun j => j.1.startUid == some o.uid
  let s := { s with outs := s.outs.filter fun x => x.uid != o.uid
                    jobs := s.jobs.map fun j => if j.startUid == some o.uid then { j with startUid := none } else j }
  hit.foldl (fun s j => s.writeCtx j.2) s

/-- A ring that RING_DELETE has closed, with no other command outstanding (R349). -/
def ringDone (s : State) (r : Ring) : Bool :=
  r.closing && !(r.held.any (·.reply)) && !(s.outs.any fun o => o.h.ring == r.num && o.cmd != .ringDelete r.num)

/-- A closed ring goes away with the last of its commands, and its RING_DELETEs reply (R349). -/
def dropClosedFrom : Nat → State → State
  | 0, s => s
  | f + 1, s =>
    match s.rings.find? fun r => s.ringDone r with
    | some r =>
      let l := s.outs.filter fun o => o.phase == .running && o.cmd == .ringDelete r.num
      let s := l.foldl (fun s o => s.endOut o 0 0 0 0 false []) s
      dropClosedFrom f { s with rings := s.rings.filter fun x => x.num != r.num }
    | none => s

/-- Every closed ring that can go away does (R349). -/
def dropClosed (s : State) : State := dropClosedFrom s.rings.length s

/-- Final reply of an outstanding command (R357), with what waits on it: the deletion of its ring (R349). -/
def finishWith (s : State) (u st rs count result : Nat) (notify : Bool) (output : List Byte) : State :=
  match s.out? u with
  | some o => (s.endOut o st rs count result notify output).dropClosed
  | none => s

/-- Final reply with a status, reason and result. -/
def finish (s : State) (u st rs result : Nat) : State := s.finishWith u st rs 0 result false []

/-- A command fails with a reason (R361). -/
def fail (s : State) (u rs : Nat) : State := s.finish u 3 rs 0

/-- A query's output goes to its buffer, or into the reply on rings 62 and 63; a buffer that cannot be written fails the query (R361, R362). -/
def answer (s : State) (o : Out) (buf : Nat) (out : List Byte) (result : Nat) : State :=
  if 62 ≤ o.h.ring then s.finishWith o.uid 0 0 0 result false out
  else
    let r := s.writeOut (out.length / 65536 + 2) buf out
    if r.2 then r.1.finish o.uid 0 0 result else r.1.fail o.uid 0

/-- The record of a block of a command (R247, R356). -/
def blockRecord (s : State) (o : Out) (blk st rs : Nat) : State :=
  let e := record 32 [(0, 1, 1), (1, 1, st), (2, 1, rs), (3, 1, 0), (4, 2, o.cmd.opcode), (6, 1, o.h.ring), (7, 1, o.h.job + 128), (8, 4, o.h.tag),
    (16, 8, blk), (24, 8, s.now)]
  (if o.h.ring = 62 then s else s.postRecord o.h.ring o.from_ (some o.uid) e).modOut o.uid fun o => { o with records := true }

/-- A block of an intent command completes; the command completes with its last block, with ST_OWNER_LOST when the owner was reset (R247, R391). -/
def blockDone (s : State) (u blk st rs : Nat) : State :=
  match s.out? u with
  | some o =>
    if o.blocks.contains blk then
      let s := if st = 0 then s else s.blockRecord o blk st rs
      let s := s.modOut u fun o => { o with
        blocks := o.blocks.erase blk
        okBlocks := o.okBlocks + b2n (st == 0)
        badBlocks := o.badBlocks + b2n (st != 0) }
      match s.out? u with
      | some o => if o.blocks.isEmpty then s.finishWith u (if st = 5 then 5 else 0) 0 o.badBlocks o.okBlocks false [] else s
      | none => s
    else s
  | none => s

/-- The blocks of the intents `l` end with a status: a command's block reports it (R239, R247). -/
def intentsEnd (s : State) (st rs : Nat) (l : List Intent) : State :=
  l.foldl (fun s i => match i.origin with
    | .command u => s.blockDone u i.block st rs
    | _ => s) s

/-- The member number that marks a request to a scratch window rather than to a cell (R211). -/
def windowMember : Nat := 576

/-- Places nothing on a core: IDLE with job_valid 0 (R378). -/
def freeCore (c : Core) : Core :=
  { c with
    job := none, cell := 0, stopSent := false, withheld := false, touches := []
    cpu := { c.cpu with st := if c.cpu.st == .fenced then .fenced else .idle, ended := false, pend := [], moves := [], sups := [], waits := [],
                        evals := [], seqTime := none, array := ArrayState.empty }
    dma := { c.dma with
      q := [], reqs := [], bufs := c.dma.bufs.filter (·.member == windowMember), waiting := c.dma.waiting.filter (·.member == windowMember)
      tracked := c.dma.tracked.filter (·.member == windowMember), closed := c.cpu.st == .fenced } }

/-- Frees every core of a job (R378, R386); no arrival engine tracks the items they had issued any more (R288). -/
def freeCores (s : State) (j : Nat) : State :=
  let mine (n : Nat) : Bool := ((s.core? n).bind (·.job)) == some j
  let drop (d : Dma) : Dma := { d with tracked := d.tracked.filter fun t => !((t.issuer.map mine).getD false) }
  { s with cores := s.cores.map fun c => let c := { c with dma := drop c.dma }; if c.job == some j && c.cpu.st != .fenced then freeCore c else c }

/-- A stopped job's cores are freed and the context is PREEMPTED; the command that stopped it replies, or its event is written (R378, R359). -/
def stopped (s : State) (j : Nat) : State :=
  let b := s.job j
  let s := (s.freeCores j).modJob j fun b => { b with awaySince := s.now, cells := b.cells.map fun c => { c with restored := false } }
  let s := (s.setJobState j 5).writeMap j
  let s := if b.stopEvent = 0 then s else s.jobEvent j b.stopEvent 0 0 0 0
  let s := s.modJob j fun b => { b with preemptUid := none, stopEvent := 0, preemptHeld := false }
  match b.preemptUid with
  | some u => s.finish u 0 0 0
  | none => s

/-- The header of a save area (R381). -/
def headerBytes (st stoppedSt lcn time items : Nat) : List Byte := record 64 [(0, 1, st), (1, 1, stoppedSt), (2, 2, lcn), (8, 8, time), (16, 4, items)]

/-- Writes the header of a save area, with an empty arrival log (R381, R383). -/
def saveFirst (s : State) (j n st stoppedSt lcn time : Nat) : State :=
  { s with mem := (s.mem.write (saveArea j n + 0x272000) (headerBytes st stoppedSt lcn time 0)).clear (saveArea j n + 0x272040) 192 }

/-- Writes the header of a save area. -/
def saveHeader (s : State) (j n st stoppedSt lcn time items : Nat) : State :=
  { s with mem := s.mem.write (saveArea j n + 0x272000) (headerBytes st stoppedSt lcn time items) }

/-- Stop requests go to the core of every placed cell; a job that was LOADED or ENDED is freed at once with saves that hold no bulk state
(R378, R386). -/
def deliverStop (s : State) (j : Nat) : State :=
  let b := s.job j
  if b.leftState = 4 then
    { s with cores := s.cores.map fun c => if c.job == some j && c.cpu.st != .fenced then { c with stopSent := true } else c }
  else
    let s := s.modJob j fun b => { b with cells := b.cells.map fun c => if c.valid then { c with save := ⟨2, 0, none, CoreObs.reset, []⟩ } else c }
    let s := (b.cells.zipIdx).foldl (fun s c => if c.1.valid then s.saveFirst j c.2 2 0 c.1.lcn s.now else s) s
    s.stopped j

/-- A job is to be preempted, by a command or with an event; a snapshot stop holds the stop requests (R378, R402). -/
def beginStop (s : State) (j : Nat) (uid : Option Nat) (event : Nat) : State :=
  let st := (s.job j).state
  let s := s.modJob j fun b => { b with leftState := st, preemptUid := uid, stopEvent := event }
  let s := s.setJobState j 7
  if (s.job j).snap.stop then s.modJob j fun b => { b with preemptHeld := true } else s.deliverStop j

/-- The job's policy HALT, after a fault (R395). -/
def policyHalt (s : State) (j : Nat) : State :=
  let st := (s.job j).state
  if st = 3 || st = 4 || st = 6 then s.beginStop j none 5 else s

end State

/-- The fault policy of a job: 0 HALT, 1 REPLACE, 2 CONTINUE; 3 acts as 0 (R363). -/
def Job.policy (b : Job) : Nat := let p := bits b.flags 3 2; if p = 3 then 0 else p

end Sys2Proof.Machine
end

