-- ==== Sys2Proof/Machine/ItemFields.lean ====
section
/-! DEFINITION. The fields of a descriptor (R265-R270). -/

namespace Sys2Proof.Machine

namespace Item

/-- Word `k` of the descriptor (R265). -/
def word (i : Item) (k : Nat) : Nat := fieldAt i.raw (8 * k) 8
/-- Control fields of word 6 (R268). -/
def srcMode (i : Item) : Nat := bits (i.word 6) 1 0
def dstModeRaw (i : Item) : Nat := bits (i.word 6) 3 2
def conv (i : Item) : Nat := bits (i.word 6) 5 4
def format (i : Item) : Nat := bits (i.word 6) 9 6
def dstSem (i : Item) : Option Nat := if bit (i.word 6) 18 then some (bits (i.word 6) 17 12) else none
def startSem (i : Item) : Nat := bits (i.word 6) 24 19
def startEn (i : Item) : Bool := bit (i.word 6) 25
def consume (i : Item) : Bool := bit (i.word 6) 26
def rptEn (i : Item) : Bool := bit (i.word 6) 28
def startTarget (i : Item) : Nat := bits (i.word 6) 47 32
def itemId (i : Item) : Nat := bits (i.word 6) 63 48
/-- Fields of word 7 (R269). -/
def rptAddr (i : Item) : Nat := bits (i.word 7) 41 24 * 8
def rptSem (i : Item) : Nat := bits (i.word 7) 47 42
def remote (i : Item) : Nat × Nat × Nat := (bits (i.word 7) 52 48, bits (i.word 7) 57 53, bits (i.word 7) 61 58)
/-- Shape (R267). -/
def len0 (i : Item) : Nat := bits (i.word 2) 20 0
def n1 (i : Item) : Nat := bits (i.word 2) 36 21 + 1
def n2 (i : Item) : Nat := bits (i.word 2) 52 37 + 1
def n3 (i : Item) : Nat := bits (i.word 2) 63 53 + 1
/-- Stride k of the source, and of the destination (R265). -/
def sStride (i : Item) (k : Nat) : Int := signedOf 32 (i.word (2 + k) % 2 ^ 32)
def dStride (i : Item) (k : Nat) : Int := signedOf 32 (i.word (2 + k) / 2 ^ 32)

/-- A descriptor that completes with ST_FAILED_FAULT at its start (R270). -/
def invalid (i : Item) : Bool :=
  2 ≤ i.srcMode || i.conv == 3 || i.len0 == 0 || (match i.dstSem with
    | some m => 48 ≤ m
    | none => false) || (i.startEn && 48 ≤ i.startSem) || (i.rptEn && 48 ≤ i.rptSem)

/-- Bytes of a tile row that a format uses (R213). -/
def rowBytes (i : Item) : Nat := if (fmtOf i.format).width = 6 then 63 else 64

end Item
end Sys2Proof.Machine
end

