-- ==== Sys2Proof/Machine/CoreOps.lean ====
section
/-! DEFINITION. A core inside the device: what its clock counts (R423), the issue of a bundle with what it asks of the rest of the device
(R39, R108, R120, R121), and the precise fault's report (R359, R395). -/

namespace Sys2Proof.Machine

/-- Rows of TLD (or of TST) in progress that land after the core's cycle and by cycle `x` (R423). -/
def rowsLanded (tld : Bool) (c : Cpu) (x : Nat) : Nat :=
  (c.moves.filter fun m => match m.2 with
    | .readTld _ _ _ :: _ => tld
    | .readTst _ _ _ :: _ => !tld
    | _ => false).foldl (fun n m => n + (min m.1 x - max (m.1 - m.2.length) c.cycle)) 0

/-- CVTs whose OVF has been set and has not landed (R160). -/
def ovfComing (c : Cpu) : Nat := (c.pend.filter fun p => p.act == .ovf true).length

/-- Cycles that a level-`k` Damper skips while the core counts to cycle `x` (R477). -/
def skippedBy (k x : Nat) : Nat := x * k / (16 - k)

/-- Feeder fill, arrivals or the fetch/store engine have scratch accesses, which may lose their bank (R48). -/
def Core.banksWanted (c : Core) : Bool := !c.cpu.array.q.isEmpty || !c.cpu.array.run.isEmpty || !c.dma.bufs.isEmpty || !c.dma.reqs.isEmpty

/-- Runs `f` on a core's execution state at a skip level, counting what the cycles it takes count; the cycles in which an access lost its bank
are a free number of them (R423, R424, R48; log entries 19, 57). -/
def Core.runCpu (sd k : Nat) (f : Cpu → Cpu) (c : Core) : Core :=
  let u := f c.cpu
  let d := u.cycle - c.cpu.cycle
  let on (b : Bool) : Nat := if b then d else 0
  let waits (e : Nat) : Bool := c.cpu.waits.any fun w => w.eng == e
  let c' := { c with cpu := u }
  let c' := c'.count 1 (on c.job.isSome)
  let c' := c'.count 6 (on (waits engArr))
  let c' := c'.count 8 (on (waits engSeq || waits engVec))
  let c' := c'.count 9 (on c.cpu.seqTime.isSome)
  let c' := c'.count 10 (rowsLanded true c.cpu u.cycle)
  let c' := c'.count 11 (rowsLanded false c.cpu u.cycle)
  let c' := c'.count 15 (on (1024 ≤ (c.dma.reqs.filter fun r => !r.queued).length))
  let c' := c'.count 18 (if c.banksWanted then Config.free sd 92 0 % (d + 1) else 0)
  c'.count 16 (skippedBy k u.cycle - skippedBy k c.cpu.cycle)

/-- The deadline's tick of an item accepted in tick `a` (R275). -/
def deadlineTick (a dl : Nat) : Nat := (((a : Int) - 8388608) + ((dl : Int) - a + 8388608) % 16777216).toNat

/-- The item of a descriptor accepted in tick `a` (R265, R275). -/
def itemOf (uid a : Nat) (raw : List Byte) : Item :=
  let w6 := fieldAt raw 48 8
  let w7 := fieldAt raw 56 8
  { uid, raw, deadline := if bit w6 27 then some (deadlineTick a (bits w7 23 0)) else if bits w6 3 2 = 2 then some (a + 4096) else none
    phase := .queued, members := [], todo := [], total := 0, land := 0, base := 0, failAt := none, cut := none, timedOut := false, ownerLost := false }

namespace State

/-- Runs `f` on the execution state of the core of LCN `n`. -/
def runCore (s : State) (n : Nat) (f : Cpu → Cpu) : State :=
  match s.core? n with
  | some c => s.modCore n (Core.runCpu s.free (s.skipLevel (dieOf c.phys)) f)
  | none => s

/-- The cycle a core's clock has reached at fabric time `t`, at the skip level in force (R65, R66, R477; log entry 46). -/
def cyclesAt (s : State) (c : Core) (t : Nat) : Nat := c.clock + (t - s.clockAt) * 3 * (16 - s.skipLevel (dieOf c.phys)) / 16

/-- The first cycle in which something is to happen on a core that only a command brings about: a wake, a pass's start or commit. -/
def nextEvent (c : Cpu) : Option Nat :=
  Cpu.minOf ((c.waits.filterMap (·.wakeAt)) ++ (c.array.run.map (·.commitAt)) ++ (match leadSwaps c.array.q with
    | (_, .entry e :: _) => [Cpu.passStartAt c.array e]
    | _ => []))

/-- The cycle to which the clock of a core runs on while fabric time reaches `t`; a core that issues bundles runs with them (log entry 46). -/
def runsTo (s : State) (c : Core) (t : Nat) : Nat :=
  if c.cpu.issues && !c.withheld then c.cpu.cycle
  else match nextEvent c.cpu with
    | some x => min x (s.cyclesAt c t)
    | none => s.cyclesAt c t

/-- The clock of a core runs on while fabric time reaches `t`. -/
def clockTo (s : State) (t : Nat) (x : Core × Nat) : Core :=
  let c := if (x.1.cpu.issues && !x.1.withheld) || x.1.cpu.st == .fenced then x.1 else { x.1 with cpu := x.1.cpu.endCycle }
  let y := s.runsTo c t
  if c.cpu.cycle < y && c.cpu.st != .fenced then c.runCpu (s.free + x.2) (s.skipLevel (dieOf c.phys)) (fun u => u.runTo (s.free + x.2) y) else c

/-- Fabric time reaches `t`: the clocks of the cores that issue nothing run on (log entry 46), and so does the 2.0 GHz clock of the Flue
(R31, R427). -/
def timeTo (s : State) (t : Nat) : State :=
  if t ≤ s.now then s
  else
    { s with now := t, cores := s.cores.zipIdx.map (s.clockTo t), free := s.free + s.cores.length }.devCount 0x10 0 (2 * (t - s.now))

/-- The clocks are brought up to fabric time, at the skip level in force until then (log entry 46). -/
def markClocks (s : State) : State :=
  { s with clockAt := max s.clockAt s.now, cores := s.cores.map fun c => { c with clock := s.cyclesAt c s.now } }

/-- Capture slots that a MARK fires (R436, R437): too small a capacity fails the capture there. -/
def fireSlot (id step cell now : Nat) (c : CapSlot) : CapSlot :=
  let want := fieldAt c.raw 38 2
  if c.phase == .armed && fieldAt c.raw 36 2 == id && fieldAt c.raw 32 4 == step && (want == 0xFFFF || want == cell) then
    let small := fieldAt c.raw 24 8 < fieldAt c.raw 8 8 + 64
    { c with phase := .fired, cell, step, markTime := now, status := if small then 3 else 0, reason := if small then 3 else 0 }
  else c

/-- The trace record of a capture (R431). -/
def capRecord (s : State) (j : Nat) (c : CapSlot) (done : Nat) : List Byte :=
  traceRec s.now 8 s.time.valid 0x3FF 2 [(16, 1, c.slot), (17, 1, c.status), (18, 1, done), (19, 1, j), (20, 4, c.step), (24, 8, fieldAt c.raw 16 8)]

/-- Every armed slot that a MARK matches fires (R436). -/
def fireCaptures (s : State) (j id step cell : Nat) : State :=
  let old := (s.job j).caps
  let s := s.modJob j fun b => { b with caps := b.caps.map (fireSlot id step cell s.now) }
  ((s.job j).caps.zip old).foldl (fun s c =>
    if c.1.phase == .fired && c.2.phase == .armed then s.trace (if c.1.engine = 1 then 5 else 4) (s.capRecord j c.1 0) else s) s

/-- A step MARK arms the automatic snapshot of BOUNDED_LOSS (R419); while 1,024 commands are armed it waits as a command of its ring does (R340; log
entry 66). -/
def armBounded (s : State) (j id step : Nat) (lead : Bool) : State :=
  let b := s.job j
  if id = 0xFFFF && lead && b.snap.bounded ≠ 0 then
    let s := s.modJob j fun b => { b with snap := { b.snap with marks := wrapAdd 32 b.snap.marks 1 } }
    match b.snap.lastBuddy with
    | some p =>
      if step % b.snap.bounded = 0 then
        let rt := tickCeil s.now + 2 * Config.tickNs
        let h : Hdr := ⟨b.ring, 0, j, some rt, false, none⟩
        let c := Cmd.snapshot ⟨0x80000000 + step % 2 ^ 31, 1, p.1, p.2.1, p.2.2, 0, 0, 0⟩
        if 1024 ≤ s.armed.length then { s with waitq := s.waitq ++ [⟨h, c, 1, (0, 0, 0), none⟩] } else
        let o : Out := ⟨s.nextUid, h, c, .armed, rt, none, false, [], 0, 0, false, (0, 0, 0)⟩
        let s := (s.modRing b.ring fun r => { r with reserved := r.reserved + 2 }).accept o
        { s with outs := s.outs ++ [o], nextUid := s.nextUid + 1 }
      else s
    | none => s
  else s

/-- A MARK: its trace record, the trace trigger, the captures it fires, the snapshot it arms (R120, R430, R436, R419). -/
def onMark (s : State) (n id step pc : Nat) : State :=
  match s.core? n with
  | some c =>
    match c.job with
    | some j =>
      let r := traceRec s.now 1 s.time.valid n 0 [(16, 2, id), (18, 2, pc), (20, 4, step), (24, 2, (s.job j).jobTag), (26, 1, j), (28, 2, c.cell)]
      let s := s.coreTrace n r
      let s := if 0xFFF0 ≤ id && id ≤ 0xFFFE then s.trigger 1 id allDies else s
      (s.fireCaptures j id step c.cell).armBounded j id step c.lead
    | none => s
  | none => s

/-- The descriptor at the queue head registers its start condition as a watch (R197, R274); a stopped or fenced core registers none (R204, R205). -/
def headWatch (s : State) (n : Nat) : State :=
  match s.core? n with
  | some c =>
    match c.dma.q.find? fun i => i.phase != .running with
    | some i =>
      if i.phase == .queued && i.startEn && i.startSem < 48 && !(c.cpu.waits.any fun w => w.eng == engFsd) && !c.withheld &&
          c.cpu.st != .saving && c.cpu.st != .fenced then
        s.modCore n fun c => { c with cpu := c.cpu.registerWait c.cpu.cycle engFsd i.startSem i.startTarget i.consume }
      else s
    | none => s
  | none => s

/-- A DMAI that found room: the item enters the queue (R43, R121, R275). -/
def onDmai (s : State) (n pc : Nat) (raw : List Byte) : State :=
  let s := s.modCore n fun c => { c with dma := { c.dma with
    q := c.dma.q ++ [itemOf c.dma.nextUid (tickOf s.now) raw], nextUid := c.dma.nextUid + 1 } }
  (s.headWatch n).coreTrace n (traceRec s.now 2 s.time.valid n 0 [(16, 2, fieldAt raw 54 2), (18, 2, pc), (24, 8, fieldAt raw 0 8)])

/-- The report of a precise fault: trace record, job event 1, and the job's policy (R108, R359, R395, R431). -/
def onPreciseFault (s : State) (n : Nat) : State :=
  match s.core? n with
  | some c =>
    let f := c.cpu.flt
    let s := s.coreTrace n (traceRec s.now 7 s.time.valid n 0 [(16, 1, f.code), (18, 2, f.pc), (20, 2, c.phys)])
    match c.job with
    | some j =>
      let s := s.jobEvent j 1 f.code c.cell f.pc c.phys
      if (s.job j).policy = 0 then s.policyHalt j else s
    | none => s
  | none => s

/-- The core of LCN `n` issues a bundle (R39): `b`, or the one at its program counter. -/
def issueBundle (s : State) (n : Nat) (b : Option Bundle) : State :=
  match s.core? n with
  | some c =>
    if c.withheld || !c.cpu.issues then s
    else
      let b := b.getD c.cpu.fetch
      let x : IssueIn := ⟨s.free, s.now, c.dma.q.length < 64⟩
      let o := c.cpu.issue x b
      let refused := match b.ctl with
        | .dmai _ _ => !o.faulted && !x.room
        | _ => false
      let s1 := s.seeded.runCore n fun _ => o.cpu
      let s2 := s1.modCore n fun c' =>
        (((c'.count 2 (b2n !o.faulted)).count 7 (b2n (!o.faulted && b.vec != .nop))).count 17 (ovfComing o.cpu - ovfComing c.cpu)).count 21 (b2n refused)
      let s3 := match o.mark with
        | some m => s2.onMark n m.1 m.2.1 m.2.2
        | none => s2
      let s4 := match o.dmai with
        | some raw => s3.onDmai n c.cpu.pc raw
        | none => s3
      if o.faulted then s4.onPreciseFault n else s4
  | none => s

/-- The bundle that holds one control, matrix, vector or move operation, the other slots no-ops (log entry 20). -/
def issueCtl (s : State) (n : Nat) (o : CtlOp) : State := s.issueBundle n (some { Bundle.nop with ctl := o })
def issueMat (s : State) (n : Nat) (o : MatOp) : State := s.issueBundle n (some { Bundle.nop with mat := o })
def issueVec (s : State) (n : Nat) (o : VecOp) : State := s.issueBundle n (some { Bundle.nop with vec := o })
def issueMov (s : State) (n : Nat) (o : MovOp) : State := s.issueBundle n (some { Bundle.nop with mov := o })

/-- A core runs to a later cycle by an event of its own: nothing happens on a core that is fenced, idle or withheld from running. -/
def coreEvent (s : State) (n : Nat) (f : Nat → Cpu → Cpu) : State :=
  match s.core? n with
  | some c =>
    if c.cpu.st == .fenced then s else s.seeded.runCore n (f s.free)
  | none => s

end State

end Sys2Proof.Machine
end

