-- ==== Sys2Proof/Machine/Packets.lean ====
section
/-! DEFINITION. Packets of the fabric (R298): their layout, and handing one to the links. -/

namespace Sys2Proof.Machine

/-- Packet kinds (R298). -/
def pkWrite : Nat := 0
def pkWriteAck : Nat := 1
def pkUndeliverable : Nat := 2
def pkCollData : Nat := 3
def pkCollCtrl : Nat := 4
def pkControl : Nat := 5
def pkTime : Nat := 6

/-- The virtual channel of a packet kind: 0 CONTROL, 1 TIME, 2 COLLECTIVE, 3 BULK (R299, R301, R311). -/
def channelOf (kind : Nat) : Nat :=
  if kind = pkWrite || kind = pkWriteAck then 3
  else if kind = pkCollData || kind = pkCollCtrl then 2
  else if kind = pkTime then 1
  else 0

/-- The 24-byte header of a packet (R298). -/
def packetHeader (dst src : Nat × Nat × Nat) (kind len nseq target lcn slot tag chunk : Nat) : List Byte :=
  leBytes 8 (pack [(0, 5, dst.1), (5, 5, dst.2.1), (10, 4, dst.2.2), (14, 5, src.1), (19, 5, src.2.1), (24, 4, src.2.2), (28, 4, kind),
      (32, 9, len), (41, 16, nseq)]) ++
    leBytes 8 target ++ leBytes 8 (pack [(0, 10, lcn), (10, 10, slot), (20, 16, tag), (36, 16, chunk)])

/-- Destination coordinates of a packet. -/
def packetDst (p : List Byte) : Nat × Nat × Nat := let w := fieldAt p 0 8; (bits w 4 0, bits w 9 5, bits w 13 10)
/-- Source coordinates of a packet. -/
def packetSrc (p : List Byte) : Nat × Nat × Nat := let w := fieldAt p 0 8; (bits w 18 14, bits w 23 19, bits w 27 24)
/-- Kind of a packet. -/
def packetKind (p : List Byte) : Nat := bits (fieldAt p 0 8) 31 28
/-- Neighbour sequence number of a packet (R302). -/
def packetNseq (p : List Byte) : Nat := bits (fieldAt p 0 8) 56 41
/-- Bytes of a packet, header and data. -/
def packetLen (p : List Byte) : Nat := 24 + bits (fieldAt p 0 8) 40 32

/-- A packet's header with another nseq. -/
def packetSetNseq (p : List Byte) (n : Nat) : List Byte := leBytes 8 (setBits (fieldAt p 0 8) 56 41 n) ++ p.drop 8

/-- The Flue class of a virtual channel's packets (R26, R301). -/
def flueClass (vc : Nat) : Nat := if vc = 3 then 0 else if vc = 2 then 3 else 4

/-- A header that is all zero is filler, and not a WRITE without data (R298; log entry 31). -/
def isFiller (bs : List Byte) : Bool := (bs.take 24).all (· == 0)

namespace State

/-- This device's coordinates (R306). -/
def here (s : State) : Nat × Nat × Nat := (s.fab.x, s.fab.y, s.fab.z)

/-- A coordinate on axis `a`: 0 X, 1 Y, 2 Z. -/
def coordOn (c : Nat × Nat × Nat) (a : Nat) : Nat := if a = 0 then c.1 else if a = 1 then c.2.1 else c.2.2
/-- Devices on an axis of the fabric. -/
def dimOn (s : State) (a : Nat) : Nat := if a = 0 then s.fab.dx else if a = 1 then s.fab.dy else s.fab.dz
/-- An axis of the fabric wraps. -/
def wrapOn (s : State) (a : Nat) : Bool := if a = 0 then s.fab.wx else if a = 1 then s.fab.wy else s.fab.wz

/-- The group a packet leaves by, in dimension order: 2 × axis for +, one more for − (R307, R308). -/
def routeGroup (s : State) (dst : Nat × Nat × Nat) : Option Nat :=
  ([0, 1, 2].find? fun a => coordOn dst a != coordOn s.here a).map fun a =>
    let h := coordOn s.here a
    let d := coordOn dst a
    if s.wrapOn a then
      let n := max 1 (s.dimOn a)
      if 2 * ((d + n - h % n) % n) ≤ n then 2 * a else 2 * a + 1
    else if h < d then 2 * a else 2 * a + 1

/-- The hop of group `g` from this device crosses its axis's dateline (R309). -/
def crosses (s : State) (g : Nat) : Bool :=
  let a := g / 2
  s.wrapOn a && (if g % 2 = 0 then coordOn s.here a + 1 == s.dimOn a else coordOn s.here a == 0)

/-- Links that are live in group `g` (R303, R305). -/
def liveLinks (s : State) (g : Nat) : List Nat := (s.links.zipIdx.filter fun l => l.1.state == 4 && l.1.group == g && !l.1.disabling).map (·.2)

/-- Live links of a group that an edge router uses: those of its own die, else those of the other; a packet of the device itself may use any
(R308, R312). -/
def groupLinks (s : State) (die : Option Nat) (g : Nat) : List Nat :=
  let l := s.liveLinks g
  match die with
  | some d => let own := l.filter fun n => n / 18 == d; if own.isEmpty then l else own
  | none => l

/-- The group of an escape from group `g` (R310). -/
def escapeGroup (s : State) (g : Nat) : Option Nat :=
  let b := (g / 2 + 1) % 3
  if !(s.liveLinks (2 * b)).isEmpty then some (2 * b)
  else if !(s.liveLinks (2 * b + 1)).isEmpty then some (2 * b + 1)
  else
    let back := if g % 2 = 0 then g + 1 else g - 1
    if s.wrapOn (g / 2) && !(s.liveLinks back).isEmpty then some back else none

/-- The bytes of a flit: its header, 244 bytes of payload, the CRC; `k` is the channel and class whose credit it returns (R294). -/
def flitBytes (l : Link) (kind vc cls seq k credits : Nat) (body : List Byte) : List Byte :=
  let head := pack [(0, 2, vc), (2, 2, cls), (4, 2, kind), (6, 12, seq), (18, 12, (l.rxSeq + 4095) % 4096), (32, 8, credits), (40, 2, k / 3), (42, 2, k % 3)]
  let bytes := leBytes 8 head ++ bytesAt body 0 244
  bytes ++ leBytes 4 (crc32 bytes)

/-- A link sends a flit. It carries the ack of what has been received and, for one channel and class, the credit of freed receive buffers; a data or
idle flit meets the receiver's duty to ack (R294, R297, R299). -/
def emit (kind vc cls seq : Nat) (body : List Byte) (l : Link) : Link :=
  let k := (l.owed.findIdx? (0 < ·)).getD 0
  let c := min 255 (l.owed.getD k 0)
  { l with
    flits := flitBytes l kind vc cls seq k c body :: l.flits
    owed := modAt l.owed k (· - c)
    acks := l.acks + b2n (kind != 2 && l.sinceAck == 64)
    sinceAck := if kind = 2 then l.sinceAck else 0
    ctlGap := min 15 (l.ctlGap + 1) }

/-- An idle flit repeats the last seq sent (R294). -/
def idleFlit (l : Link) : Link := emit 1 0 0 ((l.txSeq + 4095) % 4096) [] l

/-- The waiting payload that goes next among those with a credit (R299, R300): TIME, at most one flit per microsecond; CONTROL, at most 1 flit in 16
while the others can go; then COLLECTIVE and BULK by their weights, `w`, and one of them alone when the other has nothing to send (R27). -/
def nextPayload (now : Nat) (w : Nat × Nat) (l : Link) : Option Nat :=
  let first (vc : Nat) : Option Nat := l.txq.findIdx? fun x => x.vc == vc && 0 < l.credit.getD (3 * x.vc + x.cls) 0
  let coll := first 2
  let bulk := first 3
  let round := if l.round.1 = 0 && l.round.2 = 0 then w else l.round
  let time := if l.timeSent.all fun t => decide (t + 1000 ≤ now) then first 1 else none
  let control := if 15 ≤ l.ctlGap || (coll.isNone && bulk.isNone) then first 0 else none
  time.or (control.or (if coll.isSome && (bulk.isNone || 0 < round.1) then coll else bulk))

/-- What is left of a round's weights after a flit of a channel (R300). -/
def spend (w left : Nat × Nat) (vc : Nat) : Nat × Nat :=
  let r := if left.1 = 0 && left.2 = 0 then w else left
  if vc = 2 then (r.1 - 1, r.2) else if vc = 3 then (r.1, r.2 - 1) else left

/-- A link sends its waiting payloads while it has credits and room in its replay buffer (R297, R299, R300). -/
def pumpLink (now : Nat) (w : Nat × Nat) : Nat → Link → Link
  | 0, l => l
  | f + 1, l =>
    if l.unacked.length < 512 then
      match (nextPayload now w l).bind fun k => l.txq[k]?.map fun x => (k, x) with
      | some (k, x) =>
        let m := emit 0 x.vc x.cls l.txSeq x.body l
        pumpLink now w f { m with
          txq := dropAt l.txq k, unacked := l.unacked ++ [(l.txSeq, x)], txSeq := (l.txSeq + 1) % 4096
          credit := modAt l.credit (3 * x.vc + x.cls) (· - 1)
          timeSent := if x.vc = 1 then some now else l.timeSent
          ctlGap := if x.vc = 0 then 0 else m.ctlGap
          round := spend w l.round x.vc }
      | none => l
    else l

/-- Changes link `n`, and counts the flits that it sends (R427). -/
def linkOut (s : State) (n : Nat) (f : Link → Link) : State :=
  match s.links[n]? with
  | some l => (s.modLink n f).devCount 3 n (4 * ((f l).flits.length - l.flits.length))
  | none => s

/-- Sends what waits on link `n`, when it is ACTIVE and not being disabled (R303, R305). -/
def pump (s : State) (n : Nat) : State :=
  s.linkOut n fun l => if l.state = 4 && !l.disabling then pumpLink s.now (s.shareColl, s.shareBulk) (l.txq.length + 1) l else l

/-- A packet passes the attachment of a port die, inward or outward, in the class of its channel (R26, R29, R301, R427). -/
def crossPort (s : State) (die : Nat) (out : Bool) (p : List Byte) : State :=
  s.devCount (if out then 2 else 1) (8 * die + flueClass (channelOf (packetKind p))) (ceilDiv p.length 64)

/-- A numbered packet leaves on link `n` in buffer class `cls` (R298). -/
def putPacket (s : State) (n cls : Nat) (p : List Byte) : State :=
  (s.modLink n fun l =>
    let parts := (List.range (ceilDiv p.length 244)).map fun i => (⟨channelOf (packetKind p), cls, l.pkts, bytesAt p (244 * i) 244⟩ : TxFlit)
    { l with txq := l.txq ++ parts, held := l.held ++ [(l.pkts, cls, p)], pkts := l.pkts + 1 }).pump n

/-- A packet leaves on link `n`, numbered in its group and channel (R302). -/
def transmit (s : State) (n cls : Nat) (p : List Byte) : State :=
  let g := ((s.links[n]?).map (·.group)).getD 7
  let vc := channelOf (packetKind p)
  let q := s.nseqNext.getD (4 * g + vc) 0
  let p := packetSetNseq p q
  ({ s with nseqNext := modAt s.nseqNext (4 * g + vc) fun x => (x + 1) % 65536 }).putPacket n cls p

/-- A link of a list by the hash of a packet's destination and 256-byte unit (R308; log entry 31). -/
def pickLink (l : List Nat) (p : List Byte) : Nat :=
  l.getD (Config.free 0 71 (fieldAt p 0 8 % 16384 + 16384 * (fieldAt p 8 8 / 256)) % max 1 l.length) 0

/-- A packet leaves by a link of a list: one that comes from the Flue passes the attachment of the link's die, and one that comes from the other die
passes both (R29, R312). -/
def leave (s : State) (die : Option Nat) (l : List Nat) (cls : Nat) (p : List Byte) : State :=
  let n := pickLink l p
  let s := match die with
    | some d => if d = n / 18 then s else (s.crossPort d true p).crossPort (n / 18) false p
    | none => s.crossPort (n / 18) false p
  s.transmit n cls p

/-- The group of a packet that came over group `from_` in class `cls`. In class 2 a packet that a detour brought here takes the blocked step first, and
one on its way round a ring the other way goes on (R308, R310); otherwise it goes in dimension order. -/
def groupOf (s : State) (from_ : Option Nat) (cls : Nat) (dst : Nat × Nat × Nat) : Option Nat :=
  let g := s.routeGroup dst
  match from_ with
  | some f =>
    let a := f / 2
    let n := max 1 (s.dimOn a)
    let here := coordOn s.here a
    let before := if f % 2 = 0 then (here + n - 1) % n else (here + 1) % n
    let blocked := (a + 2) % 3
    if cls = 2 then
      (if coordOn dst a = before && coordOn dst blocked ≠ coordOn s.here blocked then
        s.routeGroup (if blocked = 0 then (dst.1, s.here.2) else if blocked = 1 then (s.here.1, dst.2.1, s.here.2.2) else (s.here.1, s.here.2.1, dst.2.2))
      else if g.map (· / 2) = some a then some f
      else g)
    else g
  | none => g

/-- An edge router sends a packet that has come to it in class `cls` over group `from_`, to port die `die`, or from the Flue: by its group, or by an
escape; `none` when it is undeliverable. How many escapes a packet of class 2 has taken its header does not say: whether one more is its third is left
open (R308-R312; log entry 31). -/
def route (s : State) (die from_ : Option Nat) (cls : Nat) (p : List Byte) : Option State :=
  match s.groupOf from_ cls (packetDst p) with
  | none => some s
  | some g =>
    let l := s.groupLinks die g
    if l.isEmpty then
      if cls = 2 && Config.free s.free 83 (fieldAt p 0 8) % 2 == 1 then none
      else (s.escapeGroup g).map fun e => (({ s with escape := bump64 s.escape 1, free := s.free + b2n (cls == 2) }).leave die (s.groupLinks die e) 2 p)
    else
      let same := (from_.map fun f => f / 2 == g / 2).getD false
      let cls := if cls = 2 then 2 else if s.crosses g || (same && cls = 1) then 1 else 0
      some (s.leave die l cls p)

/-- An edge router forwards a packet of another device; one it cannot deliver is discarded, and UNDELIVERABLE goes to its source, naming the
destination in its target (R308, R311; log entry 31). -/
def forwardPacket (s : State) (die from_ : Option Nat) (cls : Nat) (p : List Byte) : State :=
  match s.route die from_ cls p with
  | some t => t
  | none =>
    let w := fieldAt p 16 8
    let back := packetHeader (packetSrc p) s.here pkUndeliverable 0 0 (fieldAt p 0 8 % 16384) (bits w 9 0) (bits w 19 10) (bits w 35 20) 0
    if packetKind p = pkUndeliverable then s else (s.route die none 0 back).getD s

/-- Hands a packet to the edge routers, from the Flue or from an engine of port die `die`; the device's own packet that finds no way comes back as
UNDELIVERABLE (R311, R313). -/
def sendPacket (s : State) (die : Option Nat) (dst : Nat × Nat × Nat) (kind target lcn slot tag chunk : Nat) (data : List Byte) : State :=
  let p := packetHeader dst s.here kind data.length 0 target lcn slot tag chunk ++ data
  let s := { s with packets := (dst, channelOf kind, p) :: s.packets }
  match s.route die none 0 p with
  | some t => t
  | none =>
    { s with delivered := (0, packetHeader s.here s.here pkUndeliverable 0 0 (fieldAt p 0 8 % 16384) lcn slot tag 0) :: s.delivered }

end State
end Sys2Proof.Machine
end

