-- ==== Sys2Proof/Machine/DmaOps.lean ====
section
/-! DEFINITION. The operations of the fetch/store and arrival engines (chapter 10): descriptors and their pieces, targets, forming
requests, landing, failing and completing. -/

namespace Sys2Proof.Machine

namespace Item

/-- A run of bytes at offsets of source and destination, in requests of at most 256 B that cross no 256-byte boundary at either end (R273); `part` bits
of its last byte count. -/
def cutRun (sa da : Nat) (part : Option Nat) : Nat → Nat → Nat → Int → Int → Bool → List Piece
  | 0, _, _, _, _, _ => []
  | f + 1, off, len, so, dof, z =>
    if len = 0 then []
    else
      let sRoom := 256 - (((sa : Int) + so) % 256).toNat
      let dRoom := 256 - (((da : Int) + dof) % 256).toNat
      let n := min len (min dRoom (if z then 256 else sRoom))
      ⟨off, n, if z then none else some so, dof, if n = len then part else none⟩ ::
        cutRun sa da part f (if z then off else off + n) (len - n) (so + n) (dof + n) z

/-- Bits that belong to a row in its last byte, when not all of them do: FP6 elements fill 3 bytes by fours, and a row of 3k bytes is taken to be full
(R154, R272; log entry 62). -/
def partBits (i : Item) : Option Nat :=
  if (fmtOf i.format).width = 6 then (if i.len0 % 3 = 1 then some 6 else if i.len0 % 3 = 2 then some 4 else none) else none

/-- The runs of one block of the loop over i2 and i3, in transfer order: offset, length, source and destination offsets, and whether the run
writes zeros, and how many bits of its last byte count (R271, R272). -/
def blockRuns (i : Item) : List (Nat × Nat × Int × Int × Bool × Option Nat) :=
  let R := i.n1
  let L := i.len0
  let rb := i.rowBytes
  let tcs := ceilDiv L rb
  let fin (t : Nat) : Option Nat := if t + 1 = tcs then i.partBits else none
  if i.conv = 1 then
    ((List.range (ceilDiv R 32 * 32)).flatMap fun (r : Nat) => (List.range tcs).flatMap fun (t : Nat) =>
      let d : Int := ((r / 32 : Nat) : Int) * i.dStride 1 + ((t * 2048 + 64 * (r % 32) : Nat) : Int)
      if r < R then
        let n := min rb (L - t * rb)
        [(r * L + t * rb, n, (r : Int) * i.sStride 1 + ((t * rb : Nat) : Int), d, false, fin t), (r * L + t * rb + n, 64 - n, 0, d + (n : Int), true, none)]
      else [(R * L, 64, 0, d, true, none)])
  else if i.conv = 2 then
    let runs := (List.range (ceilDiv R 32)).flatMap fun (tr : Nat) => (List.range tcs).flatMap fun (t : Nat) =>
      ((List.range 32).filter fun k => tr * 32 + k < R).map fun (k : Nat) =>
        (min rb (L - t * rb), ((tr : Int) * i.sStride 1 + ((t * 2048 + 64 * k : Nat) : Int)),
          (((tr * 32 + k : Nat) : Int) * i.dStride 1 + ((t * rb : Nat) : Int)), fin t)
    (runs.foldl (fun (acc : Nat × List (Nat × Nat × Int × Int × Bool × Option Nat)) x =>
      (acc.1 + x.1, acc.2 ++ [(acc.1, x.1, x.2.1, x.2.2.1, false, x.2.2.2)])) (0, [])).2
  else (List.range R).map fun r => (r * L, L, (r : Int) * i.sStride 1, (r : Int) * i.dStride 1, false, none)

/-- Bytes of the item in transfer order (R271). -/
def bytes (i : Item) : Nat := i.n1 * i.len0 * i.n2 * i.n3

/-- The requests of an item in transfer order (R271-R273). -/
def pieces (i : Item) : List Piece :=
  let sa := i.word 0
  let da := i.word 1
  let per := i.n1 * i.len0
  (List.range i.n3).flatMap fun (i3 : Nat) => (List.range i.n2).flatMap fun (i2 : Nat) =>
    let so : Int := (i2 : Int) * i.sStride 2 + (i3 : Int) * i.sStride 3
    let dof : Int := (i2 : Int) * i.dStride 2 + (i3 : Int) * i.dStride 3
    i.blockRuns.flatMap fun r =>
      cutRun sa da r.2.2.2.2.2 (r.2.1 + 1) ((i3 * i.n2 + i2) * per + r.1) r.2.1 (so + r.2.2.1) (dof + r.2.2.2.1) r.2.2.2.2.1

end Item

/-- The data of a piece as it is read: into tiles, bits beyond the row are zero (R272). -/
def Piece.masked (i : Item) (p : Piece) (d : List Byte) : List Byte :=
  match p.part with
  | some u => if i.conv = 1 then d.dropLast ++ (d.getLast?.map fun b => BitVec.ofNat 8 (b.toNat % 2 ^ u)).toList else d
  | none => d

/-- The bits of its last byte that a piece writes, when not all of them (R272: padding is never written). -/
def Piece.keeps (i : Item) (p : Piece) : Option Nat := if i.conv = 2 then p.part else none

/-- Bytes over old ones, of which the last keeps its bits from `u` on. -/
def keepBits (part : Option Nat) (old new : List Byte) : List Byte :=
  match part with
  | some u => new.dropLast ++ (new.getLast?.map fun b => BitVec.ofNat 8 (b.toNat % 2 ^ u + (old.getLastD 0).toNat / 2 ^ u * 2 ^ u)).toList
  | none => new

/-- Where one request reads or writes (R266). -/
inductive Dest where
  | mem (a : Nat)
  | cell (cell off : Nat)
  | group (off : Nat)
  | remote (dst : Nat × Nat × Nat) (target : Nat)
  deriving DecidableEq, Repr

/-- A device address moved by a signed offset (R207: 52 bits). -/
def moveAddr (a : Nat) (o : Int) : Nat := (((a : Int) + o) % (2 ^ 52 : Nat)).toNat
/-- A window offset moved by a signed offset (R211: 22 bits). -/
def moveOff (a : Nat) (o : Int) : Nat := (((a : Int) + o) % (2 ^ 22 : Nat)).toNat

namespace State

/-- The source of a piece (R266). -/
def srcDest (i : Item) (o : Int) : Dest :=
  let w := i.word 0
  if i.srcMode = 1 then .cell (bits w 43 32) (moveOff (bits w 21 0) o) else .mem (moveAddr (bits w 51 0) o)

/-- The destination of a piece; REMOTE coordinates equal to this device's own make it local (R266, R285). -/
def dstDest (s : State) (i : Item) (o : Int) : Dest :=
  let w := i.word 1
  let mode := i.dstModeRaw
  let cellForm := Dest.cell (bits w 43 32) (moveOff (bits w 21 0) o)
  if mode = 0 then .mem (moveAddr (bits w 51 0) o)
  else if mode = 1 then cellForm
  else if mode = 2 then .group (moveOff (bits w 21 0) o)
  else if i.remote = s.here then (if bit w 63 then cellForm else .mem (moveAddr (bits w 51 0) o))
  else if bit w 63 then .remote i.remote (2 ^ 63 + bits w 43 32 * 2 ^ 32 + moveOff (bits w 21 0) o)
  else .remote i.remote (moveAddr (bits w 51 0) o)

/-- What a cell of a job resolves to (R262, R279, R288). -/
inductive Target where
  | core (lcn : Nat)
  | saved
  | wait
  | gone
  deriving DecidableEq, Repr

/-- Resolves cell `n` of job `j` through its current grid map (R266, R288, R289). -/
def cellTarget (s : State) (j n : Nat) : Target :=
  let b := s.job j
  match b.cells[n]? with
  | none => .gone
  | some c =>
    if c.lost then .gone
    else if b.state = 5 then (if c.save.state = 2 then .saved else .gone)
    else if c.valid then
      match s.core? c.lcn with
      | some k =>
        if k.cpu.st == .fenced then .gone
        else if k.cpu.st == .saving then (if c.save.control.isSome then .saved else .wait)
        else .core c.lcn
      | none => .gone
    else .gone

/-- The cell of core `n` named in CELL mode: 4,095 is the issuing core's own (R266). -/
def cellNumber (c : Core) (n : Nat) : Nat := if n = 4095 then c.cell else n

/-- Arrival updates of a saved cell go to its arrival log (R288, R383). -/
def logArrival (s : State) (j n sem : Nat) : State :=
  let a := saveArea j n + 0x272040 + 4 * sem
  if sem < 48 then { s with mem := s.mem.writeLE a 4 (s.mem.readLE a 4 + 1) } else s

/-- The memory bank of a 256-byte unit, as a number that no two banks share (R215, R224; log entry 21): a heart slice's even and odd units lie on its two
channels, with 32 banks each. -/
def bankOf (s : State) (a : Nat) : Nat :=
  let x := s.sliceOf a
  let v := Config.free 0 62 (a / 256)
  (x.1 * 256 + x.2) * 4096 + if x.1 = 0 then 32 * (a / 256 % 2) + v % 32 else v % (64 * max 1 (s.memReg.chans.getD x.2 ⟨false, false, 0, 0, 0⟩).ranks)

/-- Memory address of a place that the per-bank cap covers (R225). -/
def cappedAddr (s : State) : Dest → Option Nat
  | .mem a => match s.region a with
    | .host => some a
    | .heart => some a
    | .tiered _ => some a
    | _ => none
  | _ => none

/-- Capped addresses of a piece of an item: at its source and at its destination (R225). -/
def pieceAddrs (s : State) (i : Item) (p : Piece) : List Nat :=
  (match p.src with
    | some o => (s.cappedAddr (srcDest i o)).toList
    | none => []) ++ (s.cappedAddr (s.dstDest i p.dst)).toList

/-- The item a request belongs to. -/
def itemOfReq (c : Core) (r : Req) : Option Item := c.dma.q.find? fun i => i.uid == r.item

/-- Slots of core `n` whose requests wait for a credit: they hold no bank (R280). -/
def creditWaits (s : State) (n : Nat) : List Nat := s.cores.flatMap fun c => (c.dma.waiting.filter fun r => r.issuer == some n).map (·.slot)

/-- Requests of core `n` that hold slots against bank `b` (R225). -/
def bankHeld (s : State) (n : Nat) (c : Core) (b : Nat) : Nat :=
  (c.dma.reqs.filter fun r => !r.queued && !(s.creditWaits n).contains r.slot && match itemOfReq c r with
    | some i => (s.pieceAddrs i r.piece).any fun a => s.bankOf a == b
    | none => false).length

/-- Requests in the issue queue of the slice of address `a` (R225). -/
def sliceQueued (s : State) (c : Core) (a : Nat) : Nat :=
  (c.dma.reqs.filter fun r => r.queued && match itemOfReq c r with
    | some i => (s.pieceAddrs i r.piece).any fun x => s.sliceOf x == s.sliceOf a
    | none => false).length

/-- A piece names an address that fails as it is formed (R208, R210, R279). -/
def formFails (s : State) (i : Item) (p : Piece) : Bool :=
  let bad (store : Bool) (d : Dest) : Bool := match d with
    | .mem a => (match s.region a with
      | .bad => true
      | .reg x => store || !(regBacked x && regBacked (x + p.len - 1))
      | .heart => store
      | _ => false)
    | _ => false
  bad true (s.dstDest i p.dst) || (match p.src with
    | some o => bad false (srcDest i o)
    | none => false)

/-- A free request slot (R52). -/
def freeSlot (c : Core) : Option Nat := (List.range 1024).find? fun k => !(c.dma.reqs.any fun r => !r.queued && r.slot == k)

/-- Changes item `u` of core `n`. -/
def modItem (s : State) (n u : Nat) (f : Item → Item) : State :=
  s.modCore n fun c => { c with dma := { c.dma with q := c.dma.q.map fun i => if i.uid == u then f i else i } }

/-- Changes the request in slot `k` of core `n`. -/
def modReq (s : State) (n k : Nat) (f : Req → Req) : State :=
  s.modCore n fun c => { c with dma := { c.dma with reqs := c.dma.reqs.map fun r => if !r.queued && r.slot == k then f r else r } }

/-- The request in slot `k` of core `n`. -/
def req? (c : Core) (k : Nat) : Option Req := c.dma.reqs.find? fun r => !r.queued && r.slot == k

/-- An item stops forming requests at byte `off` (R275, R279). -/
def stopForming (i : Item) : Item :=
  match i.todo with
  | [] => i
  | p :: ps => { i with todo := [], cut := some (ps.foldl (fun m q => min m q.off) p.off) }

/-- A request of item `u` at byte `off` fails: the item forms no further requests (R279). -/
def failItem (s : State) (n u off : Nat) : State :=
  s.modItem n u fun i => { stopForming i with failAt := some (match i.failAt with
    | some x => min x off
    | none => off) }

/-- Removes the request in slot `k`. -/
def dropReq (s : State) (n k : Nat) : State :=
  s.modCore n fun c => { c with dma := { c.dma with reqs := c.dma.reqs.filter fun r => r.queued || r.slot != k } }

/-- A copy of a request has been accepted, has landed, failed or been withdrawn; the slot is freed with the last (R283). -/
def copyDone (s : State) (n k u off : Nat) : State :=
  let mine (r : Req) : Bool := r.item == u && r.piece.off == off && r.phase == .land
  match (s.core? n).bind fun c => req? c k with
  | some r =>
    if !mine r then s
    else if r.copies ≤ 1 then s.dropReq n k
    else s.modReq n k fun r => { r with copies := r.copies - 1 }
  | none => s

/-- Member `t` of item `u` fails (R284). -/
def failMember (s : State) (n u t : Nat) : State :=
  s.modItem n u fun i => { i with members := modAt i.members t fun m => { m with failed := true } }

/-- A remote write has landed (0), or has failed (1): its device hears of it (R285). -/
def answerAck (s : State) (t : Option AckTo) (failed : Nat) : State :=
  match t with
  | some t => s.sendPacket none t.dev pkWriteAck t.word 0x3FF 0 t.tag failed []
  | none => s

/-- A request for a target that cannot take it: the unicast item, or the member, fails (R279, R284, R289); `taken` tells that it had its credit. -/
def failCopy (s : State) (r : ArrReq) (taken : Bool) : State :=
  match r.issuer with
  | some n =>
    let s := if r.copy then s.failMember n r.item r.member else s.failItem n r.item r.off
    if r.copy && taken then s else s.copyDone n r.slot r.item r.off
  | none => s.answerAck r.ackTo 1

/-- The final status of an item that stopped (R276, R284, R391). -/
def itemStatus (i : Item) : Nat :=
  if i.ownerLost then 5
  else if i.failAt.isSome || i.members.any (·.failed) then 3
  else if i.timedOut || i.members.any (·.late) then 6
  else 0

/-- The item a request on its way into a core belongs to, at its issuer. -/
def itemOfArr (s : State) (r : ArrReq) : Option Item :=
  match r.issuer with
  | some n => (s.core? n).bind fun c => c.dma.q.find? fun i => i.uid == r.item
  | none => none

/-- The landing of an item's last byte counts, unless the item has failed, timed out or gone (R276, R280). -/
def countsArrival (s : State) (r : ArrReq) : Bool :=
  if r.issuer.isNone then true
  else match s.itemOfArr r with
    | some i => if r.copy then !((i.members[r.member]?).any fun m => m.failed || m.late) else itemStatus i == 0
    | none => false

/-- A request has been given its credit: a multicast copy has been accepted (R283). -/
def accepted (s : State) (r : ArrReq) : State :=
  match r.issuer with
  | some n => if r.copy then s.copyDone n r.slot r.item r.off else s
  | none => s

/-- Lowers the first byte that an item has not written to `off` (R277). -/
def lowerCut (off : Nat) (i : Item) : Item := { i with cut := some (min off (i.cut.getD off)) }

/-- A copy without a credit is not sent any more: past the deadline its member is late (R284), and once its issuer has stopped it is withdrawn
(R286); any other request waits at core `t` (R280). -/
def noCredit (s : State) (t : Nat) (r : ArrReq) : State :=
  match r.issuer with
  | some n =>
    let stopped := ((s.core? n).map fun c => c.cpu.st == .saving).getD false
    if r.copy && ((s.itemOfArr r).map (·.timedOut)).getD false then
      (s.modItem n r.item fun i => { i with members := modAt i.members r.member fun m => { m with late := true } }).copyDone n r.slot r.item r.off
    else if r.copy && stopped then (s.modItem n r.item (lowerCut r.off)).copyDone n r.slot r.item r.off
    else s.modCore t fun c => { c with dma := { c.dma with waiting := c.dma.waiting ++ [r] } }
  | none => s.modCore t fun c => { c with dma := { c.dma with waiting := c.dma.waiting ++ [r] } }

/-- Bytes of an item have landed in a core or its save area: the tracking entry and the member count them (R280). -/
def countLanded (s : State) (r : ArrReq) (len : Nat) : State :=
  match r.issuer with
  | some n => s.modItem n r.item fun i => { i with members := modAt i.members r.member fun m => { m with got := m.got + len } }
  | none => s

/-- Tracks an incoming item at core `t` (R280). -/
def trackAdd (r : ArrReq) (d : Dma) : Dma :=
  if d.tracked.any fun k => k.issuer == r.issuer && k.item == r.item && k.member == r.member then d
  else { d with tracked := d.tracked ++ [⟨r.issuer, r.item, r.member, 0⟩] }

/-- A request can have a credit at an arrival path (R280). -/
def hasCredit (r : ArrReq) (d : Dma) : Bool :=
  !d.closed && d.bufs.length < 64 &&
    ((d.tracked.any fun k => k.issuer == r.issuer && k.item == r.item && k.member == r.member) || d.tracked.length < 128)

/-- Requests of an item that wait for credits at a core stay in their order (R283). -/
def behind (r : ArrReq) (d : Dma) : Bool := d.waiting.any fun q => q.issuer == r.issuer && q.item == r.item && q.member == r.member

/-- A request comes to the arrival path of core `t`: it takes a landing buffer, or has no credit (R280). -/
def arriveCore (s : State) (t : Nat) (c : Core) (r : ArrReq) : State :=
  if !backedOff c.lead r.woff r.data.length then s.failCopy r false
  else if hasCredit r c.dma && !behind r c.dma then
    (s.modCore t fun c => { c with dma := trackAdd r { c.dma with bufs := c.dma.bufs ++ [r] } }).accepted r
  else s.noCredit t r

/-- A request lands in the save area of cell `r.cell` of job `j` (R288). -/
def arriveSaved (s : State) (j : Nat) (r : ArrReq) : State :=
  let a := saveArea j r.cell + r.woff
  let s := { s with mem := s.mem.write a (keepBits r.part (s.mem.read a r.data.length) r.data) }
  let key := (r.issuer, r.item, r.member)
  let b := s.job j
  let got := ((b.landed.find? fun x => x.1 == r.cell && x.2.1 == key).map (·.2.2)).getD 0 + r.data.length
  let rest := b.landed.filter fun x => !(x.1 == r.cell && x.2.1 == key)
  let s := s.modJob j fun b => { b with landed := if r.total ≤ got then rest else rest ++ [(r.cell, key, got)] }
  let s := if r.total ≤ got && s.countsArrival r then (match r.sem with
    | some m => s.logArrival j r.cell m
    | none => s) else s
  let s := (s.countLanded r r.data.length).answerAck r.ackTo 0
  match r.issuer with
  | some n => s.copyDone n r.slot r.item r.off
  | none => s

/-- A request comes to cell `r.cell` of job `j`, wherever the cell is (R266, R280, R288, R289). -/
def arrive (s : State) (j : Nat) (r : ArrReq) (off : Nat) : State :=
  let r := { r with woff := off }
  match s.cellTarget j r.cell with
  | .core t =>
    match s.core? t with
    | some c => s.arriveCore t c r
    | none => s.failCopy r false
  | .wait =>
    match ((s.job j).cells[r.cell]?).map (·.lcn) with
    | some t => s.noCredit t r
    | none => s.failCopy r false
  | .saved =>
    if backedOff ((((s.job j).cells[r.cell]?).map (·.lead)).getD false) off r.data.length then s.arriveSaved j r else s.failCopy r false
  | .gone => s.failCopy r false

/-- A request comes to the window of core `t` (R211). -/
def arriveWindow (s : State) (t : Nat) (r : ArrReq) : State :=
  match s.core? t with
  | some c => if c.cpu.st == .fenced then s.failCopy r false else s.arriveCore t c r
  | none => s.failCopy r false

/-- A device address lies in the scratch windows (R207). -/
def inWindows (a : Nat) : Bool := 0x100000000 ≤ a && a < 0x200000000

/-- An item goes to device addresses outside the scratch windows, so that its own fetch/store engine counts it (R187, R276). -/
def ownCount (i : Item) : Bool :=
  (i.dstModeRaw = 0 || (i.dstModeRaw = 3 && !bit (i.word 1) 63)) && !inWindows (bits (i.word 1) 51 0)

/-- Bytes of an item, from its base on, that land in the window of core `t` (R187, R211). -/
def windowBytes (s : State) (i : Item) (t : Nat) : Nat :=
  ((Item.pieces i).filter fun p => i.base ≤ p.off && (match s.dstDest i p.dst with
    | .mem a => inWindows a && (a - 0x100000000) / 0x400000 = t
    | _ => false)).foldl (fun n p => n + p.len) 0

/-- First occurrence of each cell of a group (R281). -/
def firstCopies (ms : List Member) : List Nat :=
  (List.range ms.length).filter fun t => match ms[t]? with
    | some m => !((ms.take t).any fun x => x.cell == m.cell) && !m.failed && !m.counted && !m.late
    | none => false

/-- Sends the copies of the request in slot `k` to its cells: one, or one for each member (R283). -/
def sendCopies (s : State) (n k : Nat) : State :=
  match s.core? n with
  | some c =>
    match req? c k, c.job with
    | some r, some j =>
      match itemOfReq c r with
      | some i =>
        let mk (t cell off : Nat) (copy : Bool) : ArrReq × Nat :=
          (⟨some n, k, i.uid, t, cell, r.piece.off, off, r.data, i.land, i.dstSem, r.piece.keeps i, copy, none⟩, off)
        let copies := match s.dstDest i r.piece.dst with
          | .cell cell off => [mk 0 (cellNumber c cell) off false]
          | .group off => (firstCopies i.members).map fun t => mk t ((i.members.getD t ⟨0, false, false, 0, false⟩).cell) off true
          | _ => []
        let s := s.modReq n k fun r => { r with phase := .land, copies := copies.length }
        if copies.isEmpty then s.dropReq n k else copies.foldl (fun s x => s.arrive j x.1 x.2) s
      | none => s
    | _, _ => s
  | none => s

/-- Copies leave in the order in which their requests were formed: those of item `u` whose data is held go while none formed earlier is still being
read (R283). -/
def sendHeld (s : State) (n u : Nat) : Nat → State
  | 0 => s
  | f + 1 =>
    match (s.core? n).bind fun c => c.dma.reqs.find? fun r => r.item == u && (r.queued || r.phase == .read || r.phase == .held) with
    | some r => if !r.queued && r.phase == .held then sendHeld (s.sendCopies n r.slot) n u f else s
    | none => s

/-- The data of the request in slot `k` is at the engine: it goes on to its destination (R273, R285). -/
def forward (s : State) (n k : Nat) : State :=
  match s.core? n with
  | some c =>
    match req? c k with
    | some r =>
      match itemOfReq c r with
      | some i =>
        let s := s.modCore n (Core.count 14 (ceilDiv r.data.length 64))
        match s.dstDest i r.piece.dst with
        | .mem _ => s.modReq n k fun r => { r with phase := .write }
        | .remote d target =>
          let tag := match c.job with
            | some j => (s.job j).jobTag
            | none => 0
          (s.sendPacket none d pkWrite target n k tag 0 r.data).modReq n k fun r => { r with phase := .ack, sentAt := s.now }
        | .group _ => (s.modReq n k fun r => { r with phase := .held }).sendHeld n i.uid 1024
        | .cell _ _ => s.sendCopies n k
      | none => s
    | none => s
  | none => s

/-- The free values of the next command are others than those a read of the core `c` in this cycle drew (R50). -/
def drawn (s : State) (c : Cpu) : State := if c.tstWas.isEmpty then s else s.seeded

/-- A request that has just taken its slot: a source in the core's own scratch, or none, is read at once (R271). -/
def launch (s : State) (n k : Nat) : State :=
  match s.core? n with
  | some c =>
    match req? c k with
    | some r =>
      match itemOfReq c r with
      | some i =>
        match r.piece.src with
        | none => (s.modReq n k fun r => { r with data := List.replicate r.piece.len 0 }).forward n k
        | some o =>
          (match srcDest i o with
           | .cell cell off =>
             if cellNumber c cell = c.cell && backedOff c.lead off r.piece.len then
               ((s.drawn c.cpu).modReq n k fun r => { r with data := r.piece.masked i (windowRead s.free c.cpu off r.piece.len) }).forward n k
             else s
           | _ => s)
      | none => s
    | none => s
  | none => s

/-- What the engine does next with the pieces of an item in transfer order (R225, R273). -/
inductive Form where
  /-- forms the piece at this place, which waits for its bank or takes a slot -/
  | piece (at_ : Nat) (wait : Bool)
  /-- nothing: what is left goes to slices whose issue queues are full -/
  | blocked
  /-- nothing: no slot is free -/
  | full
  deriving DecidableEq, Repr

/-- The first piece of a list that can be formed (R225, R273): a full issue queue holds back every piece for its slice. -/
def nextPiece (s : State) (n : Nat) (c : Core) (i : Item) (free : Bool) : List (Piece × Nat) → Form
  | [] => .blocked
  | p :: ps =>
    let as := s.pieceAddrs i p.1
    if as.any fun a => 32 ≤ s.sliceQueued c a then nextPiece s n c i free ps
    else if as.any fun a => 64 ≤ s.bankHeld n c (s.bankOf a) then .piece p.2 true
    else if free then .piece p.2 false
    else .full

/-- The next piece over the running items, in their order. -/
def nextFormOf (s : State) (n : Nat) (c : Core) (free : Bool) : List Item → Option (Item × Nat × Bool)
  | [] => none
  | i :: is =>
    match s.nextPiece n c i free i.todo.zipIdx with
    | .piece k w => some (i, k, w)
    | .blocked => nextFormOf s n c free is
    | .full => none

/-- The first running item that has a piece to form. -/
def nextForm (s : State) (n : Nat) (c : Core) : Option (Item × Nat × Bool) :=
  s.nextFormOf n c (decide ((c.dma.reqs.filter fun r => !r.queued).length < 1024)) (c.dma.q.filter fun i => i.phase == .running)

/-- Forms requests while slots and issue queues take them (R225, R273). -/
def formAll (s : State) (n : Nat) : Nat → State
  | 0 => s
  | f + 1 =>
    match s.core? n with
    | some c =>
      if c.cpu.st == .saving || c.cpu.st == .fenced then s
      else
        match s.nextForm n c with
        | some (i, at_, wait) =>
          match i.todo[at_]? with
          | some p =>
            if s.formFails i p then formAll (s.failItem n i.uid p.off) n f
            else
              let k := (freeSlot c).getD 0
              let s := s.modItem n i.uid fun i => { i with todo := dropAt i.todo at_ }
              let r : Req := ⟨k, i.uid, p, .read, wait, [], 0, 0, false⟩
              let s := s.modCore n fun c => { c with dma := { c.dma with reqs := c.dma.reqs ++ [r] }, bankSat := bump64 c.bankSat (b2n wait) }
              formAll (if wait then s else s.launch n k) n f
          | none => s
        | none => s
    | none => s

/-- A request in an issue queue whose banks are below the cap takes a free slot (R225). -/
def releaseQueued (s : State) (n : Nat) : State :=
  match s.core? n with
  | some c =>
    let ready (r : Req) : Bool := r.queued && (match itemOfReq c r with
      | some i => (s.pieceAddrs i r.piece).all fun a => s.bankHeld n c (s.bankOf a) < 64
      | none => false)
    match c.dma.reqs.findIdx? ready, freeSlot c with
    | some x, some k =>
      let s := s.modCore n fun c => { c with dma := { c.dma with reqs := modAt c.dma.reqs x fun r => { r with slot := k, queued := false } } }
      s.launch n k
    | _, _ => s
  | none => s

/-- A slot has come free: a queued request takes it, and the engine forms more (R52, R225). -/
def refill (s : State) (n : Nat) : State := (s.releaseQueued n).formAll n 8192

/-- Leading bytes of an item written and acknowledged, in units of 65,536 (R277). -/
def doneUnits (c : Core) (i : Item) : Nat :=
  let offs := ((c.dma.reqs.filter fun r => r.item == i.uid).map (·.piece.off)) ++ (i.todo.map (·.off)) ++ i.cut.toList ++ i.failAt.toList
  let lead := offs.foldl min i.total
  if i.phase != .running then i.base / 65536 else if lead = i.total then ceilDiv i.total 65536 else lead / 65536

/-- A member's result at completion: it received every byte (R284). -/
def memberOk (i : Item) (ms : List Member) (m : Member) : Bool :=
  let f := (ms.find? fun x => x.cell == m.cell).getD m
  !f.failed && !f.late && (f.counted || i.land ≤ f.got)

/-- Bitmap of the members that received every byte (R277). -/
def memberBits (i : Item) : List Bool := i.members.map (memberOk i i.members)

/-- The report record of an item (R277). -/
def reportBytes (i : Item) (st units : Nat) : List Byte :=
  record 8 [(0, 2, i.itemId), (2, 1, st), (4, 4, units)] ++ (if i.dstModeRaw = 2 then leBytes 72 (bitsOf (memberBits i)) else [])

/-- Requests of item `u` of core `n` are in landing buffers, or wait for credits. -/
def arriving (s : State) (n u : Nat) : Bool := s.cores.any fun c => (c.dma.bufs ++ c.dma.waiting).any fun r => r.issuer == some n && r.item == u

/-- Nothing of item `u` of core `n` is tracked or waits at any core (R280). -/
def dropArrivals (s : State) (n u : Nat) : State :=
  { s with cores := s.cores.map fun c =>
      if (c.dma.tracked.any fun t => t.issuer == some n && t.item == u) || (c.dma.waiting.any fun t => t.issuer == some n && t.item == u) then
        { c with dma := { c.dma with tracked := c.dma.tracked.filter fun t => !(t.issuer == some n && t.item == u)
                                     waiting := c.dma.waiting.filter fun t => !(t.issuer == some n && t.item == u) } }
      else c }

/-- An item leaves the queue with a status: report, ring record, DMA_FAIL_LAST, trace record, event (R276-R278, R291). `silent` is a stop by
preemption, which writes no report and counts nothing (R286). -/
def endItem (s : State) (n : Nat) (i : Item) (st : Nat) (silent report : Bool) : State :=
  match s.core? n with
  | some c =>
    let units := if i.dstModeRaw = 2 && !silent then (if (memberBits i).any id then ceilDiv i.total 65536 else 0) else doneUnits c i
    let missing := (memberBits i).filter (!·)
    let s := s.modCore n fun c => { c with dma := { c.dma with
      q := c.dma.q.filter fun x => x.uid != i.uid, reqs := c.dma.reqs.filter fun r => r.item != i.uid
      failLast := if st = 0 then c.dma.failLast else ⟨i.itemId, st, true, units⟩ } }
    let s := s.modCore n (Core.count 12 1)
    let s := match i.dstSem with
      | some m => if st = 0 && ownCount i then
          s.modCore n fun c => { c with cpu := c.cpu.signal c.cpu.cycle engFsd m false 1 c.cpu.cycle } else s
      | none => s
    let s := if i.rptEn && report && !silent then
        s.modCore n fun c => { c with cpu := ((windowWrite s.free i.rptAddr (reportBytes i st units) c.cpu).signal c.cpu.cycle engArrival i.rptSem false 1
          c.cpu.cycle) }
      else s
    let s := s.coreTrace n (traceRec s.now 3 s.time.valid n 0 [(16, 2, i.itemId), (18, 1, st), (24, 8, i.word 1)])
    let s := (s.dropArrivals n i.uid).headWatch n
    match c.job with
    | some j => if st = 0 then s else s.itemRecord j st 0 i.itemId c.cell units missing.length
    | none => s
  | none => s

end State
end Sys2Proof.Machine
end

