-- ==== Sys2Proof/Machine/PlaceOps.lean ====
section
/-! DEFINITION. The placement engine's operations (chapter 09): frames, holds, intents, victims, moves, and what ends them. -/

namespace Sys2Proof.Machine
namespace State

/-- Frames of a tier (R236). -/
def frames (s : State) (tier : Nat) : Nat :=
  if tier = 0 then (s.memReg.heartUsable - s.memReg.fwHeld) * 16 else (s.memReg.baseTotal - 1024 * s.memReg.hostGib) * 16

/-- State frames not yet taken, of every job (R408). -/
def stateFrames (s : State) : Nat :=
  (s.jobs.flatMap fun j => j.snap.todo.filter fun i => match i with
    | .frame _ _ _ => true
    | .block _ => false).length

/-- A request that has been served at memory is not yet acknowledged: core, slot, item and byte (R240). -/
def unacked (s : State) (x : Nat × Nat × Nat × Nat) : Bool :=
  (((s.core? x.1).bind fun c => req? c x.2.1).map fun r => r.phase == .ack && r.item == x.2.2.1 && r.piece.off == x.2.2.2).getD false

/-- Requests served at block `b` and not yet acknowledged (R240). -/
def servedAt (s : State) (b : Nat) : List (Nat × Nat × Nat × Nat) :=
  s.cores.zipIdx.flatMap fun c => (c.1.dma.reqs.filter fun r => !r.queued && r.phase == .ack && match itemOfReq c.1 r with
    | some i => (match s.dstDest i r.piece.dst with
      | .mem a => s.region a == .tiered b
      | _ => false)
    | none => false).map fun r => (c.2, r.slot, r.item, r.piece.off)

/-- Frames of a tier that are not free (R236, R240). -/
def usedFrames (s : State) (tier : Nat) : Nat :=
  (s.blks.filter fun b => b.state != .unmapped && b.tier == tier).length +
    (s.blks.filter fun b => match b.image with
      | some i => i.data.isSome && i.tier == tier
      | none => false).length +
    (s.kept.filter fun k => k.2.tier == tier).length +
    (s.oldFrames.filter fun f => f.1 == tier && f.2.any s.unacked).length +
    (s.moves.filter fun m => m.tier == tier).length +
    (if tier = 0 then s.reserve + s.stateFrames else s.store.foldl (fun n g => n + g.images.length) 0)

/-- Free frames of a tier (R236). -/
def freeFrames (s : State) (tier : Nat) : Nat := s.frames tier - s.usedFrames tier

/-- Frames of the copy-on-write reserve (R410). -/
def reserveSize (s : State) : Nat := if s.fuses.tk9620 then 196608 else 262144

/-- A window's region covers a block of the window's own group (R252). -/
def regionCovers (s : State) (j w : Nat) (r : WinRegion) (b : Nat) : Bool :=
  let first := (r.addr - 0x100000000000) / 65536
  first ≤ b && b < first + r.blocks && 0x100000000000 ≤ r.addr &&
    (match s.objOf b with
     | some o => o.owner == j && o.group == w
     | none => false)

/-- A held region of a stream window covers the block (R254). -/
def windowHeld (s : State) (b : Nat) : Bool :=
  s.jobs.zipIdx.any fun j => j.1.wins.any fun w => w.active && w.list.any fun r => r.held && s.regionCovers j.2 w.num r b

/-- A pin covers the block (R248). -/
def pinned (s : State) (b : Nat) : Bool := match s.objOf b with
  | some o => o.pins != 0
  | none => false

/-- A pin or a held region covers the block: a standing rise intent (R246). -/
def held (s : State) (b : Nat) : Bool := s.pinned b || s.windowHeld b

/-- The priority of the block's owner (R249). -/
def blkPriority (s : State) (b : Nat) : Nat := match s.objOf b with
  | some o => (s.job o.owner).priority
  | none => 0

/-- A block can be a victim (R229, R249). -/
def canSink (s : State) (k : Blk) : Bool :=
  k.state == .heart && !s.held k.idx && k.image.isNone && !k.poisoned && !(s.intents.any fun i => i.block == k.idx && i.rise) &&
    !(s.moves.any fun m => m.block == k.idx)

/-- The older of two blocks by access tick, ties to the lower index (R249). -/
def olderBlk (a b : Blk) : Blk := if a.access < b.access || (a.access == b.access && a.idx < b.idx) then a else b

/-- The victim for a rise of priority `p` (R249). -/
def victim (s : State) (p : Nat) : Option Blk :=
  let all := s.blks.filter s.canSink
  let low := all.filter fun k => s.blkPriority k.idx ≤ p
  match (if low.isEmpty then all else low) with
  | [] => none
  | k :: ks => some (ks.foldl olderBlk k)

/-- The frame tier that a waiting intent asks for. -/
def wantTier (i : Intent) : Nat := if i.rise then 0 else 1

/-- A waiting intent's block already has its home copy where the intent wants it, with nothing under way (R239). -/
def satisfied (s : State) (i : Intent) : Bool :=
  match s.blk? i.block with
  | some k => k.tier == wantTier i && k.state != .unmapped && (s.moveOf i.block).isNone
  | none => false

/-- Waiting intents on block `b` that are satisfied complete with ST_OK (R239). -/
def settleIntents (s : State) (b : Nat) : State :=
  let done := s.intents.filter fun i => i.block == b && s.satisfied i
  ({ s with intents := s.intents.filter fun i => !(i.block == b && s.satisfied i) }).intentsEnd 0 0 done

/-- Ends every intent on block `b`, waiting or joined to its move, with a status (R239). -/
def endIntents (s : State) (b st : Nat) : State :=
  let l := (s.intents.filter fun i => i.block == b) ++ (match s.moveOf b with
    | some m => m.for_
    | none => [])
  let s := { s with intents := s.intents.filter fun i => i.block != b
                    moves := s.moves.map fun (m : Move) => if m.block == b then { m with for_ := [] } else m }
  s.intentsEnd st 0 l

/-- An intent loses to another on its block (R245). -/
def supersede (s : State) (b : Nat) (rise : Bool) : State :=
  let lose (i : Intent) : Bool := i.block == b && i.rise == rise
  let l := (s.intents.filter lose) ++ (s.moves.flatMap fun m => m.for_.filter lose)
  let s := { s with intents := s.intents.filter fun i => !lose i
                    moves := s.moves.map fun (m : Move) => { m with for_ := m.for_.filter fun i => !lose i } }
  s.intentsEnd 2 0 l

/-- An intent is accepted (R229, R239, R245, R246). -/
def acceptIntent (s : State) (i : Intent) : State :=
  match s.blk? i.block with
  | none => s.intentsEnd 3 0 [i]
  | some k =>
    if k.state == .unmapped then s.intentsEnd 3 0 [i]
    else if k.poisoned then s.intentsEnd (if k.tier = wantTier i then 0 else 3) 0 [i]
    else if !i.rise && s.held i.block then s.intentsEnd 2 0 [i]
    else
      let s := s.supersede i.block (!i.rise)
      match s.moveOf i.block with
      | some m =>
        if m.tier = wantTier i && (!m.cow || k.tier ≠ wantTier i) then
          { s with moves := s.moves.map fun x => if x.block == i.block then { x with for_ := x.for_ ++ [i] } else x }
        else if m.cow && k.tier = wantTier i && m.tier = wantTier i then s.intentsEnd 0 0 [i]
        else { s with intents := s.intents ++ [i] }
      | none => if s.satisfied i then s.intentsEnd 0 0 [i] else { s with intents := s.intents ++ [i] }

/-- A stack for a new heart frame, which the placement engine chooses (R215; log entry 22). -/
def chooseStack (s : State) (b : Nat) : Nat := s.stackIn (List.range 12) (Config.free s.free 63 b)

/-- A mover that works and copies fewer than 64 blocks (R244). -/
def moverFree (s : State) (m : Nat) : Bool :=
  decide (m < 4) && !(s.moverFailed.getD m true) && (s.moves.filter fun x => x.mover == m).length < 64

/-- A mover for a copy-on-write (R242; log entry 22). -/
def chooseMover (s : State) (b : Nat) : Option Nat :=
  let l := (List.range 4).filter s.moverFree
  l[Config.free s.free 64 b % max 1 l.length]?

/-- A demand write finds block `b` FROZEN: its copy-on-write starts in a reserve frame; none when the reserve is empty (R242, R411). -/
def startCow (s : State) (b : Nat) : State :=
  match s.moveOf b, s.chooseMover b with
  | none, some m =>
    if 0 < s.reserve then
      let mv : Move := ⟨b, m, 3, 0, s.chooseStack b, true, true, []⟩
      ({ s with moves := s.moves ++ [mv], reserve := s.reserve - 1 }).seeded
    else s
  | _, _ => s

/-- Adds a frame that an image has freed to the reserve (R410). -/
def refillOne (s : State) : State := if s.reserveKept && s.reserve < s.reserveSize then { s with reserve := s.reserve + 1 } else s

/-- The move of `i` can start now: a frame of its tier is free (R239, R249). -/
def startable (s : State) (i : Intent) : Bool :=
  (s.moveOf i.block).isNone && 0 < s.freeFrames (wantTier i) &&
    (match s.blk? i.block with
     | some k => k.state != .unmapped && k.tier != wantTier i && !k.poisoned
     | none => false)

/-- Starts the move of intent `i` on a mover, with every waiting intent of the same block and direction (R239). -/
def startMoveOf (s : State) (m : Nat) (i : Intent) : State :=
  let same (x : Intent) : Bool := x.block == i.block && x.rise == i.rise
  let mv : Move := ⟨i.block, m, i.cls, wantTier i, if i.rise then s.chooseStack i.block else 0,
    (s.blk? i.block).any (fun k => k.state == .frozen), false, s.intents.filter same⟩
  let s := ({ s with moves := s.moves ++ [mv], intents := s.intents.filter fun x => !same x }).seeded
  if mv.cow then s else s.modBlk i.block fun k => { k with state := if i.rise then .rising else .sinking }

/-- A rise that lacks a frame can take a victim (R249, R259). -/
def takesVictim (s : State) (i : Intent) : Bool :=
  i.rise && (s.moveOf i.block).isNone && i.origin != .touch && s.freeFrames 0 = 0 && 0 < s.freeFrames 1 &&
    !(s.moves.any fun m => m.for_.any fun x => x.origin == .victim i.block) && (s.victim (s.blkPriority i.block)).isSome

/-- The oldest waiting intent of the highest class that has work (R244). -/
def nextIntent (s : State) : Option Intent :=
  [3, 2, 1, 0].findSome? fun c => s.intents.find? fun i => i.cls == c && (s.startable i || s.takesVictim i)

/-- Class of the sinks that fill the copy-on-write reserve: URGENT in step 5 of a snapshot stop, else BACKGROUND (R410). -/
def reserveClass (s : State) : Nat := if s.jobs.any fun j => j.snap.stop then 3 else 0

/-- Block `k` starts to sink on mover `m` for an origin (R249, R410). -/
def startSink (s : State) (m cls : Nat) (o : Origin) (k : Blk) : State :=
  let mv : Move := ⟨k.idx, m, cls, 1, 0, false, false, [⟨k.idx, false, cls, o⟩]⟩
  ({ s with moves := s.moves ++ [mv] }).modBlk k.idx fun b => { b with state := .sinking }

/-- With no intent to serve, mover `m` sinks a victim for the copy-on-write reserve (R410). -/
def startReserve (s : State) (m : Nat) : State :=
  let filling := (s.moves.filter fun x => x.for_.any fun i => i.origin == .reserve).length
  if s.reserveKept && s.reserve + filling < s.reserveSize && 0 < s.freeFrames 1 then
    match s.victim 255 with
    | some k => s.startSink m s.reserveClass .reserve k
    | none => s
  else s

/-- Mover `m` starts the oldest waiting move of the highest class that has work, taking a victim if it needs one (R244, R249). -/
def startMove (s : State) (m : Nat) : State :=
  if !s.moverFree m then s
  else
    match s.nextIntent with
    | some i =>
      if s.startable i then s.startMoveOf m i
      else
        match s.victim (s.blkPriority i.block) with
        | some k => s.startSink m i.cls (.victim i.block) k
        | none => s
    | none => s.startReserve m

/-- Every request of a move that commits has read its source and written its destination (R427, R496). -/
def countMove (s : State) (k : Blk) (tier stack : Nat) : State :=
  (List.range 16).foldl (fun s j =>
    let l := s.stripes
    let at_ (tier stack : Nat) : Nat × Nat :=
      if tier = 0 then (0, 16 * stack + (j + k.idx % 16) % 16) else (1, l.getD ((j + k.idx % max 1 l.length) % max 1 l.length) 0)
    (s.countAt (at_ k.tier k.stack) 4096 false 1).countAt (at_ tier stack) 4096 true 1) s

/-- An uncorrectable error poisons the block of an address (R228): a move that copies it is abandoned, the block stays at its source, and the
intents on it end, with ST_OK where the home copy lies in the tier they name, else with ST_FAILED_FAULT (R229, R239, R250). -/
def spoilAt (s : State) (a src : Nat) : State :=
  match s.region a with
  | .tiered b =>
    let m := s.moveOf b
    let l := (s.intents.filter fun i => i.block == b) ++ ((m.map (·.for_)).getD [])
    let there (i : Intent) : Bool := ((s.blk? b).map fun k => k.tier == wantTier i).getD false
    let s : State := { s with
      intents := s.intents.filter fun i => i.block != b
      moves := s.moves.filter fun x => x.block != b
      reserve := s.reserve + ((m.map fun (m : Move) => b2n m.reserve).getD 0) }
    let s := s.modBlk b fun (k : Blk) => { k with state := if k.state == .frozen || k.state == .unmapped then k.state else if k.tier = 0 then .heart else .base }
    ((s.intentsEnd 0 0 (l.filter there)).intentsEnd 3 0 (l.filter fun i => !there i)).poisonAt a src
  | _ => s.poisonAt a src

/-- An uncorrectable error at the source of a move (R228, R239). -/
def failMove (s : State) (m : Move) : State := s.spoilAt (blkAddr m.block) 3

/-- The move of block `b` commits (R239, R240): its source frame stays taken while requests served there are not complete; a copy-on-write copy separates the block from its image. -/
def commitMove (s : State) (b : Nat) : State :=
  match s.moveOf b with
  | some m =>
    let s := { s with moves := s.moves.filter fun x => x.block != b }
    let s := match s.blk? b with
      | some k => s.countMove k m.tier m.stack
      | none => s
    let s := if m.cow then s.cowSplit b m.tier m.stack
      else
        let open_ := s.servedAt b
        let s := if open_.isEmpty then s else { s with oldFrames := (s.oldFrames.filter fun f => f.2.any s.unacked) ++ [(1 - m.tier, open_)] }
        (s.modBlk b fun k => { k with state := if m.tier = 0 then .heart else .base, tier := m.tier, stack := m.stack }).devCount 9 m.cls 1
    let fills := m.for_.any fun i => i.origin == .reserve
    let s := if fills then s.refillOne else s
    (s.intentsEnd 0 0 m.for_).settleIntents b
  | none => s

/-- A move is abandoned with its destination frame, its intents requeued (R250). -/
def requeueMove (s : State) (m : Move) : State :=
  let s := { s with moves := s.moves.filter fun x => x.block != m.block, intents := m.for_ ++ s.intents, reserve := s.reserve + b2n m.reserve }
  s.modBlk m.block fun k => { k with state := if k.state == .frozen then .frozen else if k.tier = 0 then .heart else .base }

/-- Unmaps block `b`; pending intents report a status, and an image is kept until taken (R239). -/
def unmapBlk (s : State) (b st : Nat) : State :=
  let s := s.endIntents b st
  let s := { s with reserve := s.reserve + ((s.moves.filter fun (m : Move) => m.block == b && m.reserve).length)
                    moves := s.moves.filter fun (m : Move) => m.block != b }
  let old := s.mem.slice (blkAddr b) 65536
  let image := ((s.blk? b).bind (·.image)).map fun i => if i.data.isSome then i else { i with data := some old }
  let s := { s with blks := s.blks.filter fun (k : Blk) => k.idx != b, kept := s.kept ++ (image.map fun i => (b, i)).toList }
  { s with mem := s.mem.clear (blkAddr b) 65536 }

/-- Writes of items that wait on a FROZEN block of an object whose owner is reset: the items stop and report ST_OWNER_LOST (R390, R391). -/
def loseWriters (s : State) (o : Obj) : State :=
  let waits (c : Core) (r : Req) : Bool := !r.queued && r.phase == .write && match itemOfReq c r with
    | some i => (match s.dstDest i r.piece.dst with
      | .mem a => (match s.region a with
        | .tiered b => o.first ≤ b && b < o.first + o.count && (s.blk? b).any fun k => k.state == .frozen && !k.poisoned
        | _ => false)
      | _ => false)
    | none => false
  s.cores.zipIdx.foldl (fun s c => (c.1.dma.reqs.filter (waits c.1)).foldl (fun s r =>
    (s.modItem c.2 r.item fun i => { stopForming i with ownerLost := true }).dropReq c.2 r.slot) s) s

/-- Unmaps every block of an object and removes it; status 5 for the reset of its owner. -/
def dropObject (s : State) (o : Obj) (st : Nat) : State :=
  let s := if st = 5 then s.loseWriters o else s
  let s := ((List.range o.count).map (· + o.first)).foldl (fun s b => s.unmapBlk b st) s
  { s with objs := s.objs.filter fun x => x.num != o.num }

/-- Puts a block record in the list, in rising index. -/
def insertBlk (k : Blk) : List Blk → List Blk
  | [] => [k]
  | x :: xs => if k.idx < x.idx then k :: x :: xs else if k.idx == x.idx then k :: xs else x :: insertBlk k xs

/-- Maps block `b`, reading as zero, in the tier asked for or the other (R236). -/
def mapBlk (s : State) (tier b : Nat) : State :=
  let t := if 0 < s.freeFrames tier then tier else 1 - tier
  let k : Blk := ⟨b, if t = 0 then .heart else .base, t, if t = 0 then s.chooseStack b else 0, false, none, tickOf s.now⟩
  { s with blks := insertBlk k s.blks, mem := s.mem.clear (blkAddr b) 65536 }

/-- The image that job `j` keeps of block `b` after its unmapping (R243). -/
def keptImage (s : State) (j b : Nat) : Option BImage := (s.kept.find? fun x => x.1 == b && x.2.job == j).map (·.2)

/-- Job `j`'s image of block `b` is taken; its separated frame goes to the reserve (R239, R410). -/
def takeImage (s : State) (j b : Nat) : State :=
  match s.keptImage j b with
  | some i =>
    let s := { s with kept := s.kept.filter fun x => !(x.1 == b && x.2.job == j) }
    if i.tier = 0 then s.refillOne else s
  | none =>
    match (s.blk? b).bind (·.image) with
    | some i =>
      let s := match s.moveOf b with
        | some m => if m.cow then s.requeueMove m else s
        | none => s
      let s := s.modBlk b fun k => { k with image := none, state := if k.state == .frozen then (if k.tier = 0 then .heart else .base) else k.state }
      if i.data.isSome && i.tier = 0 then s.refillOne else s
    | none => s

/-- Writes that waited on a copy-on-write are tried again: they land once their block has left its image, and start a copy when the reserve has a
frame (R242, R411). -/
def retryStalled (s : State) : State :=
  s.stalled.foldl (fun s x =>
    match s.region x.1 with
    | .tiered b =>
      (match s.blk? b with
       | some k =>
         if k.poisoned then s.answerAck x.2.2 1
         else if k.state == .frozen then (let t := s.startCow b; { t with stalled := t.stalled ++ [x] })
         else (let t := s.abortMove b; { t with mem := t.mem.write x.1 x.2.1 }.answerAck x.2.2 0)
       | none => s.answerAck x.2.2 1)
    | _ => s) { s with stalled := [] }

/-- Waiting intents that a change has satisfied complete (R239). -/
def settleWaiting (s : State) : State := ((s.intents.filter fun i => s.satisfied i).map (·.block)).eraseDups.foldl settleIntents s

/-- Every mapped block of the snap objects of job `j` is FROZEN with an image; moves abort and are requeued (R239, R409). -/
def freezeBlk (s : State) (j b : Nat) : State :=
  let s := match s.moveOf b with
    | some m => if m.cow then s else s.requeueMove m
    | none => s
  s.modBlk b fun k => if k.state == .unmapped then k else { k with state := .frozen, image := some ⟨j, k.tier, k.stack, none⟩ }

/-- A demand request of core `n` reaches block `b`: the access tick, the window regions it belongs to, and a late block (R238, R253, R255). -/
def demand (s : State) (n b addr : Nat) : State :=
  let s := s.touchBlk b
  match (s.core? n).bind (·.job) with
  | some j =>
    let late := match s.blk? b with
      | some k => k.state != .heart
      | none => false
    let hit (w : Win) (r : WinRegion) : Bool := w.active && s.regionCovers j w.num r b
    let lateHits := (s.job j).wins.flatMap fun w => (w.list.zipIdx.filter fun r => hit w r.1 && r.1.held && late).map fun r => (w.num, r.2, r.1)
    let first := lateHits.filter fun x => !x.2.2.late
    let mark (w : Win) (r : WinRegion) : WinRegion :=
      if hit w r then { r with seen := true, late := r.late || (r.held && late) } else r
    let s := s.modJob j fun x => { x with wins := x.wins.map fun w =>
      { w with list := w.list.map (mark w), late := w.late + (w.list.filter fun r => hit w r && r.held && late && !r.late).length } }
    let isLate (o : Origin) : Bool := lateHits.any fun x => o == .window j x.1 x.2.1
    let raise (i : Intent) : Intent := if isLate i.origin then { i with cls := 3 } else i
    let s := { s with
      intents := s.intents.map raise
      moves := s.moves.map fun (m : Move) => if m.for_.any (fun i => isLate i.origin) then { m with cls := 3, for_ := m.for_.map raise } else m }
    let s := if lateHits.isEmpty then s else s.modCore n (Core.count 19 1)
    let die := (((s.core? n).map fun c => dieOf c.phys).getD 0)
    first.foldl (fun s x =>
      (s.trace die (traceRec s.now 4 s.time.valid 0x3FF 5 [(16, 1, x.1), (17, 1, j), (18, 2, x.2.1), (24, 8, addr)])).devCount 0xB j 1) s
  | none => s

end State
end Sys2Proof.Machine
end

