-- ==== Sys2Proof/Machine/DmaEvents.lean ====
section
/-! DEFINITION. The events of the data engines (chapter 10, R52, R53, R221, R226-R229): a descriptor starts, a request is served, acknowledged or
fails, a request lands, an item completes or meets its deadline. -/

namespace Sys2Proof.Machine
namespace State

/-- A request fails at its target: its item forms no more, and its slot is freed (R279). -/
def failReq (s : State) (n k : Nat) : State :=
  match (s.core? n).bind fun c => req? c k with
  | some r => (((s.failItem n r.item r.piece.off).dropReq n k).sendHeld n r.item 1024).refill n
  | none => s

/-- The members of an item's group when it starts (R281, R282): none for another mode. -/
def groupMembers (s : State) (j : Nat) (i : Item) : List Member :=
  if i.dstModeRaw = 2 then
    let g := bits (i.word 1) 39 32
    match (s.job j).groups.find? fun x => x.1 == g with
    | some x => x.2.map fun c => ⟨c, false, false, 0, false⟩
    | none => []
  else []

/-- Bytes of pieces in all. -/
def pieceBytes (l : List Piece) : Nat := l.foldl (fun n p => n + p.len) 0

/-- What remains of a piece from byte `b` of the transfer order on (R287). -/
def pieceFrom (b : Nat) (p : Piece) : Option Piece :=
  if b ≤ p.off then some p
  else
    match p.src with
    | some o => if b < p.off + p.len then some ⟨b, p.len - (b - p.off), some (o + ((b - p.off : Nat) : Int)), p.dst + ((b - p.off : Nat) : Int), p.part⟩ else none
    | none => none

/-- An item as it starts, or restarts at its base: its pieces still to form (R273, R287). -/
def beginItem (ms : List Member) (i : Item) : Item :=
  let todo := (Item.pieces i).filterMap (pieceFrom i.base)
  { i with phase := .running, members := ms, todo, total := Item.bytes i, land := pieceBytes todo }

/-- The descriptor at the head of core `n`'s queue starts, or ends at its start (R270, R274, R275, R281). -/
def startHead (s : State) (n : Nat) : State :=
  match s.core? n with
  | some c =>
    if c.withheld || !(c.cpu.st == .running || c.cpu.st == .stopped) then s
    else
      match c.dma.q.find? fun i => i.phase != .running, c.job with
      | some i, some j =>
        if i.deadline.any (· ≤ tickOf s.now) then
          (s.modCore n fun c => { c with cpu := c.cpu.dropWait engFsd }).endItem n i 6 false true
        else if i.phase == .queued && i.startEn && i.startSem < 48 then s.headWatch n
        else if i.invalid then s.endItem n i 3 false true
        else
          let ms := if i.base = 0 && i.members.isEmpty then s.groupMembers j i else i.members
          if i.dstModeRaw = 2 && ms.isEmpty then s.endItem n i 3 false true
          else ((s.modItem n i.uid (beginItem ms)).headWatch n).formAll n 8192
      | _, _ => s
  | none => s

/-- An item writes every byte of the 64 KiB block at address `a` (R229). -/
def coversBlock (s : State) (i : Item) (a : Nat) : Bool :=
  let dst (p : Piece) : Nat := match s.dstDest i p.dst with
    | .mem x => x
    | _ => 0
  let inBlk := i.pieces.filter fun p => dst p / 65536 == a / 65536
  (List.range 256).all fun u => 256 ≤ pieceBytes (inBlk.filter fun p => dst p / 256 == a / 65536 * 256 + u)

/-- The piece is the last of its item that has still to be written in its block (R229). -/
def lastInBlock (s : State) (c : Core) (i : Item) (slot a : Nat) : Bool :=
  let dst (p : Piece) : Nat := match s.dstDest i p.dst with
    | .mem x => x / 65536
    | _ => 0
  let near (p : Piece) : Bool := dst p == a / 65536
  !(i.todo.any near) && !(c.dma.reqs.any fun r => r.item == i.uid && (r.queued || r.slot != slot) && (r.phase == .read || r.phase == .write) && near r.piece)

/-- Clears the poison of the block of an address (R229). -/
def unpoison (s : State) (a : Nat) : State :=
  match s.region a with
  | .tiered b => s.modBlk b fun k => { k with poisoned := false }
  | _ => { s with poison := s.poison.filter (· != a / 65536) }

/-- A request reads memory at `a`; `err` 1 a corrected, 2 an uncorrectable error (R226, R228, R229). -/
def readMem (s : State) (n k a err : Nat) (i : Item) (p : Piece) (b : Option Nat) : State :=
  if s.poisoned a then s.failReq n k
  else
    let s := match b with
      | some b => s.demand n b a
      | none => s
    let s := s.countSlice a p.len false
    if err = 2 then (s.spoilAt a 0).failReq n k
    else
      let s := if err = 1 then s.eccCorrect a else s
      let d := p.masked i (s.mem.read a p.len)
      (s.modReq n k fun r => { r with data := d }).forward n k

/-- The request in slot `k` of core `n` is served at its source (R210, R211, R221, R266, R288). -/
def serveRead (s : State) (n k err : Nat) (c : Core) (r : Req) (i : Item) : State :=
  let give (s : State) (d : List Byte) : State := (s.modReq n k fun r => { r with data := r.piece.masked i d }).forward n k
  match r.piece.src.map fun o => srcDest i o with
  | some (.mem a) =>
    match s.region a with
    | .reg x => let v := s.regBytes x r.piece.len; give v.1 v.2
    | .window t off =>
      match s.core? t with
      | some d =>
        if d.cpu.st == .fenced then s.failReq n k
        else if d.cpu.st == .saving then s
        else give (s.drawn d.cpu) (windowRead s.free d.cpu off r.piece.len)
      | none => s.failReq n k
    | .pcie _ => give s.seeded ((List.range r.piece.len).map fun q => BitVec.ofNat 8 (Config.free s.free 66 q))
    | .tiered b => if s.mapped b then s.readMem n k a err i r.piece (some b) else s.failReq n k
    | .host | .heart => s.readMem n k a err i r.piece none
    | .bad => s.failReq n k
  | some (.cell cell off) =>
    match c.job with
    | some j =>
      let cell := cellNumber c cell
      (match s.cellTarget j cell with
       | .core t => (match s.core? t with
         | some d => if backedOff d.lead off r.piece.len then give (s.drawn d.cpu) (windowRead s.free d.cpu off r.piece.len) else s.failReq n k
         | none => s.failReq n k)
       | .saved =>
         if !backedOff ((((s.job j).cells[cell]?).map (·.lead)).getD false) off r.piece.len then s.failReq n k
         else s.readMem n k (saveArea j cell + off) err i r.piece none
       | .wait => s
       | .gone => s.failReq n k)
    | none => s
  | _ => s

/-- A request writes memory at `a`: whole code words, or a read-modify-write, on which an error bears (R227-R229). -/
def writeMem (s : State) (n k a err : Nat) (c : Core) (r : Req) (i : Item) (b : Option Nat) : State :=
  let bad := s.poisoned a
  if bad && !s.coversBlock i a then s.failReq n k
  else
    let word := if (s.sliceOf a).1 = 0 then 32 else 64
    let rmw := decide (a % word ≠ 0) || decide (r.data.length % word ≠ 0) || (r.piece.keeps i).isSome
    let s := match b with
      | some b => (s.demand n b a).abortMove b
      | none => s
    let s := s.countSlice a r.data.length true
    if rmw && !bad && err = 2 then (s.spoilAt a 1).failReq n k
    else
      let s := if rmw && err = 1 then s.eccCorrect a else s
      let s := ({ s with mem := s.mem.write a (keepBits (r.piece.keeps i) (s.mem.read a r.data.length) r.data) }).spoilRings a r.data.length
      let s := if bad && s.lastInBlock c i k a then s.unpoison a else s
      s.modReq n k fun r => { r with phase := .ack }

/-- A demand write finds block `b` FROZEN: it stalls behind a copy-on-write, which it starts where none is under way (R242, R411). -/
def stallWrite (s : State) (n k b : Nat) (r : Req) : State :=
  if (s.moveOf b).isSome then s
  else if 0 < s.reserve then s.startCow b
  else if r.cowLate then s
  else
    let j := (((s.blk? b).bind (·.image)).map (·.job)).getD 8
    (s.modJob j fun x => { x with snap := { x.snap with cowLate := wrapAdd 32 x.snap.cowLate 1 } }).modReq n k fun r => { r with cowLate := true }

/-- The request in slot `k` of core `n` is served at its memory destination (R208, R211, R221, R227, R239-R242). -/
def serveWrite (s : State) (n k err : Nat) (c : Core) (r : Req) (i : Item) : State :=
  match s.dstDest i r.piece.dst with
  | .mem a =>
    match s.region a with
    | .window t off =>
      (match s.core? t with
       | some d =>
         if d.cpu.st == .fenced then s.failReq n k
         else
           let q : ArrReq := ⟨some n, k, i.uid, windowMember, c.cell, r.piece.off, off, r.data, s.windowBytes i t, if ownCount i then none else i.dstSem, r.piece.keeps i, false, none⟩
           (s.modReq n k fun r => { r with phase := .land, copies := 1 }).arriveWindow t q
       | none => s.failReq n k)
    | .pcie x => ({ s with sent := .pcieOut true x r.data :: s.sent }).modReq n k fun r => { r with phase := .ack }
    | .tiered b =>
      (match s.blk? b with
       | some x =>
         if x.state == .unmapped then s.failReq n k
         else if x.state == .frozen && !x.poisoned then s.stallWrite n k b r
         else if x.state == .frozen then (s.cowSplit b x.tier x.stack).writeMem n k a err c r i (some b)
         else s.writeMem n k a err c r i (some b)
       | none => s.failReq n k)
    | .host => s.writeMem n k a err c r i none
    | _ => s.failReq n k
  | _ => s

/-- The request in slot `k` of the core of LCN `n` is served (R221). -/
def serveSlot (s : State) (n k err : Nat) : State :=
  match s.core? n with
  | some c =>
    match req? c k with
    | some r =>
      match itemOfReq c r with
      | some i =>
        match r.phase with
        | .read => (s.serveRead n k err c r i).refill n
        | .write => s.serveWrite n k err c r i
        | _ => s
      | none => s
    | none => s
  | none => s

/-- A place that fails requests; another device answers that a request failed there, or is unreachable (R208, R229, R279, R285, R311). -/
def placeFails (s : State) (c : Core) : Dest → Bool
  | .mem a =>
    match s.region a with
    | .bad => true
    | .tiered b => !s.mapped b || s.poisoned a
    | .window t _ => ((s.core? t).map fun d => d.cpu.st == .fenced).getD true
    | .host | .heart => s.poisoned a
    | _ => false
  | .cell cell _ => (match c.job with
    | some j => s.cellTarget j (cellNumber c cell) == .gone
    | none => false)
  | .remote _ _ => true
  | .group _ => false

/-- The request in a slot fails, when its target fails requests (R279, R285). -/
def failSlot (s : State) (n k : Nat) : State :=
  match s.core? n with
  | some c =>
    match req? c k with
    | some r =>
      match itemOfReq c r with
      | some i =>
        let place := match r.phase with
          | .read => r.piece.src.map fun o => srcDest i o
          | _ => some (s.dstDest i r.piece.dst)
        if (place.map fun d => s.placeFails c d).getD false then s.failReq n k else s
      | none => s
    | none => s
  | none => s

/-- The acknowledgement of a slot's write returns, and the slot is free (R52, R276). -/
def ackSlot (s : State) (n k : Nat) : State :=
  match (s.core? n).bind fun c => req? c k with
  | some r => if r.phase == .ack then (s.dropReq n k).refill n else s
  | none => s

/-- An item with nothing left to form, no request outstanding and, for a multicast item, no copy on its way completes (R276, R284); the items of a
stopped core settle with it (R286). -/
def completeItem (s : State) (n u : Nat) : State :=
  match s.core? n with
  | some c =>
    match c.dma.q.find? fun i => i.uid == u with
    | some i =>
      if i.phase == .running && i.todo.isEmpty && !(c.dma.reqs.any fun r => r.item == u) && !s.arriving n u && c.cpu.st != .fenced && c.cpu.st != .saving then
        s.endItem n i (itemStatus i) false true
      else s
    | none => s
  | none => s

/-- Copies of item `u` of core `n` that wait for credit are withdrawn: their members are late, or for a stop only lack them (R283, R284, R286). -/
def withdraw (s : State) (n u : Nat) (late : Bool) : State :=
  let mine (r : ArrReq) : Bool := r.issuer == some n && r.item == u
  let l := s.cores.flatMap fun c => c.dma.waiting.filter mine
  let s := { s with cores := s.cores.map fun c => if c.dma.waiting.any mine then { c with dma := { c.dma with waiting := c.dma.waiting.filter fun r => !mine r } } else c }
  l.foldl (fun s r =>
    let s := if late then s.modItem n u fun i => { i with members := modAt i.members r.member fun m => { m with late := true } } else s
    s.copyDone n r.slot r.item r.off) s

/-- The tick of an item's deadline arrives (R275, R284); an item of a stopped core meets it at its re-entry (R287). -/
def itemDeadline (s : State) (n u : Nat) : State :=
  match s.core? n with
  | some c =>
    match c.dma.q.find? fun i => i.uid == u with
    | some i =>
      match i.deadline with
      | some d =>
        let s := s.timeTo (d * Config.tickNs)
        if c.cpu.st == .saving then s
        else if i.phase == .running then
          let s := s.modItem n u fun i => { stopForming i with
            timedOut := true
            members := i.members.map fun m => if i.todo.isEmpty then m else { m with late := m.late || !m.counted } }
          if i.dstModeRaw = 2 then (s.withdraw n u true).refill n else s
        else
          let head := (c.dma.q.find? fun x => x.phase != .running).map (·.uid)
          let s := if head == some u then s.modCore n fun c => { c with cpu := c.cpu.dropWait engFsd } else s
          s.endItem n i 6 false true
      | none => s
    | none => s
  | none => s

/-- The oldest request that waits for a credit of core `t`'s arrival path and can have one gets it (R280); a request held while the core was
SAVING goes to where its cell is now (R288). -/
def grantCredit (s : State) (t : Nat) : State :=
  match s.core? t with
  | some c =>
    match c.dma.waiting.findIdx? fun r => hasCredit r c.dma with
    | some x =>
      (match c.dma.waiting[x]? with
       | some r =>
         let s := (s.modCore t fun c => { c with dma := trackAdd r { c.dma with bufs := c.dma.bufs ++ [r], waiting := dropAt c.dma.waiting x } }).accepted r
         (match r.issuer with
          | some n => s.refill n
          | none => s)
       | none => s)
    | none => s
  | none => s

/-- The oldest request in a landing buffer of core `t` lands; the last byte of its item updates the item's semaphore (R53, R276, R280). -/
def landArrival (s : State) (t : Nat) : State :=
  match s.core? t with
  | some c =>
    match c.dma.bufs with
    | r :: rest =>
      let off := r.woff
      let key (k : Track) : Bool := k.issuer == r.issuer && k.item == r.item && k.member == r.member
      let got := ((c.dma.tracked.find? key).map (·.got)).getD 0 + r.data.length
      let whole := decide (r.total ≤ got)
      let tracked := if whole then c.dma.tracked.filter fun k => !key k else c.dma.tracked.map fun k => if key k then { k with got } else k
      let counts := whole && s.countsArrival r
      let s := s.modCore t fun c =>
        let d := keepBits r.part (windowRead s.free c.cpu off r.data.length) r.data
        let u := windowWrite s.free off d c.cpu
        let u := match r.sem with
          | some m => if counts then u.signal u.cycle engArrival m false 1 u.cycle else u
          | none => u
        ({ c with cpu := u, dma := { c.dma with bufs := rest, tracked } }).count 13 (ceilDiv r.data.length 64)
      let s := (s.countLanded r r.data.length).answerAck r.ackTo 0
      (match r.issuer with
       | some n => if r.copy then s else (s.copyDone n r.slot r.item r.off).refill n
       | none => s)
    | [] => s
  | none => s

end State
end Sys2Proof.Machine
end

