-- ==== Sys2Proof/Machine/CaptureOps.lean ====
section
/-! DEFINITION. Sillage captures (R434-R438): the copy of a slot's source, its dump header and its status record.  Log entry 40. -/

namespace Sys2Proof.Machine

/-- Bytes a capture copies (R435). -/
def CapSlot.len (c : CapSlot) : Nat := fieldAt c.raw 8 8

/-- A word in the form of src that names a cell window: its cell and offset (R435). -/
def CapSlot.window (c : CapSlot) (w : Nat) : Option (Nat × Nat) :=
  if w.testBit 63 then some (if bits w 43 32 = 4095 then c.cell else bits w 43 32, bits w 21 0) else none

/-- The cell a capture reads from. -/
def CapSlot.source (c : CapSlot) : Option Nat := (c.window (fieldAt c.raw 0 8)).map (·.1)

/-- The bytes of the status record (R437). -/
def CapSlot.statusBytes (c : CapSlot) (st rs copied now : Nat) : List Byte :=
  record 32 [(0, 1, st), (1, 1, rs), (2, 1, c.slot), (3, 1, c.onEngine), (4, 4, c.step), (8, 8, copied), (16, 8, c.markTime), (24, 8, now)]

/-- The dump header (R437). -/
def CapSlot.header (c : CapSlot) (tag : Nat) : List Byte :=
  record 64 [(0, 4, 0x4B545343), (4, 1, c.slot), (5, 1, c.onEngine), (6, 2, c.cell), (8, 4, c.step), (12, 2, fieldAt c.raw 36 2), (14, 2, tag),
    (16, 8, c.markTime), (24, 8, c.len), (32, 1, fieldAt c.raw 40 1), (33, 1, fieldAt c.raw 41 1), (34, 1, fieldAt c.raw 42 1),
    (36, 4, fieldAt c.raw 44 4), (40, 4, fieldAt c.raw 48 4), (44, 8, fieldAt c.raw 0 8)]

namespace State

/-- The slot `k` of a job. -/
def cap? (s : State) (j k : Nat) : Option CapSlot := (s.job j).caps.find? fun c => c.slot == k

/-- Replaces a capture slot by `f` of it. -/
def modCap (s : State) (j k : Nat) (f : CapSlot → CapSlot) : State :=
  s.modJob j fun b => { b with caps := b.caps.map fun c => if c.slot == k then f c else c }

/-- Bytes `o` to `o + n - 1` of a capture's source, as one request reads them now; `none` when it fails (R438). -/
def capRead (s : State) (j : Nat) (c : CapSlot) (o n : Nat) : Option (List Byte) :=
  let w := fieldAt c.raw 0 8
  match c.window w with
  | some (cell, off) =>
    if !backedOff ((((s.job j).cells[cell]?).map (·.lead)).getD false) (off + o) n then none
    else match s.cellTarget j cell with
      | .core t => (s.core? t).map fun k => windowRead s.free k.cpu (off + o) n
      | .saved => if s.poisoned (saveArea j cell + off + o) then none else some (s.mem.read (saveArea j cell + off + o) n)
      | _ => none
  | none =>
    let a := bits w 51 0 + o
    match s.region a with
    | .window t off => (s.core? t).bind fun k => if k.cpu.st == .fenced then none else some (windowRead s.free k.cpu off n)
    | .reg x => some (s.regBytes x n).2
    | .pcie _ => some ((List.range n).map fun q => BitVec.ofNat 8 (Config.free s.free 82 (o + q)))
    | .bad => none
    | _ => s.fwRead a n

/-- The source from byte `o` on, in naturally aligned requests of at most 256 B, as far as they succeed (R437, R438). -/
def capGather (s : State) (j : Nat) (c : CapSlot) : Nat → Nat → List Byte
  | 0, _ => []
  | f + 1, o =>
    if c.len ≤ o then []
    else
      let n := min (256 - (fieldAt c.raw 0 8 + o) % 256) (c.len - o)
      match s.capRead j c o n with
      | some d => d ++ capGather s j c f (o + n)
      | none => []

/-- All of the source that can be read now. -/
def capAll (s : State) (j : Nat) (c : CapSlot) : List Byte := s.capGather j c (c.len / 256 + 2) 0

/-- Bytes copied between two moments: each holds its value at one of them, freely (R437). -/
def capMix (s : State) (before after : List Byte) : List Byte :=
  after.zipIdx.map fun x => match before[x.2]? with
    | some b => if pick s.free 83 x.2 2 = 0 then b else x.1
    | none => x.1

/-- Something ends a running copy with a status; what has been copied stands (R438). -/
def cutCapture (s : State) (j st : Nat) (c : CapSlot) : State :=
  if c.phase == .running && c.status = 0 then
    let d := s.capMix c.bytes (s.capAll j c)
    let n := pick s.free 84 c.slot (d.length + 1)
    (s.modCap j c.slot fun x => { x with status := st, reason := 0, bytes := d.take n }).seeded
  else s

/-- The copies whose source is a cell end when that cell stops or is lost (R438). -/
def cutCell (s : State) (j cell st : Nat) : State :=
  ((s.job j).caps.filter fun c => c.source == some cell).foldl (fun s c => s.cutCapture j st c) s

/-- Writes bytes piece by piece; how many could be written. -/
def capWrite (s : State) : Nat → Nat → List Byte → Nat → State × Nat
  | 0, _, _, k => (s, k)
  | f + 1, a, bs, k =>
    if bs.isEmpty then (s, k)
    else
      let n := min bs.length (65536 - a % 65536)
      match s.fwWrite a (bs.take n) with
      | some s' => capWrite s' f (a + n) (bs.drop n) (k + n)
      | none => (s, k)

/-- The status record goes to memory or to a cell, whose arrival engine counts it (R435, R437). -/
def capStatus (s : State) (j : Nat) (c : CapSlot) (bs : List Byte) : State :=
  let w := fieldAt c.raw 56 8
  match c.window w with
  | some (cell, off) =>
    let m := fieldAt c.raw 43 1
    s.arrive j ⟨none, 0, c.slot + 64 * j, 2, cell, 0, off, bs, 32, if m < 48 then some m else none, none, false, none⟩ off
  | none =>
    let a := bits w 51 0
    match s.region a with
    | .window t off =>
      let m := fieldAt c.raw 43 1
      s.arriveWindow t ⟨none, 0, c.slot + 64 * j + 2 ^ 62, windowMember, 0, 0, off, bs, 32, if m < 48 then some m else none, none, false, none⟩
    | _ => s.tryWrite a bs

/-- What a capture has copied is written at its destination, then its status record; its slot is spent (R436, R437). -/
def endCapture (s : State) (j : Nat) (c : CapSlot) (st rs : Nat) (data : List Byte) : State :=
  let dst := fieldAt c.raw 16 8
  let img := c.header (s.job j).jobTag ++ data
  let r := if c.phase == .running then s.capWrite (img.length / 65536 + 2) dst img 0 else (s, 0)
  let copied := r.2 - 64
  let failed := c.phase == .running && r.2 < img.length
  let st := if failed then 3 else st
  let rs := if failed then 0 else rs
  let s := if (c.window (fieldAt c.raw 0 8)).isNone then r.1.countRange (bits (fieldAt c.raw 0 8) 51 0) copied false 0 [] else r.1
  let s := s.countRange dst r.2 true 0 []
  let s := s.capStatus j c (c.statusBytes st rs copied s.now)
  let s := match s.region (bits (fieldAt c.raw 0 8) 51 0) with
    | .reg x => if c.source.isNone then (s.regBytes x copied).1 else s
    | _ => s
  let s := s.trace (4 + c.onEngine) (s.capRecord j { c with status := st } 1)
  ({ s with capEng := modAt s.capEng c.onEngine fun e => { e with done := (e.done + 1) % 2 ^ 48 } }).modCap j c.slot fun x => { x with phase := .spent }

/-- The engine that can take a slot: the named one, the less busy one for 0xFF, the other when it is out of use (R436, R438). -/
def capEngineOf (s : State) (c : CapSlot) : Option Nat :=
  let up (e : Nat) : Bool := !((s.capEng.getD e ⟨true, 0⟩).failed)
  let e := if c.engine < 2 then c.engine else if s.capturesOn 1 < s.capturesOn 0 then 1 else 0
  if up e then some e else if up (1 - e) then some (1 - e) else none

/-- CAPTURE_START (R436): an engine that runs fewer than four captures takes a fired slot. -/
def startCapture (s : State) (j k e : Nat) : State :=
  match s.cap? j k with
  | some c =>
    let waits := (c.source.map fun n => s.cellTarget j n == .wait).getD false
    if c.phase == .fired && c.status = 0 && s.capEngineOf c == some e && s.capturesOn e < 4 && !waits then
      (s.modCap j k fun x => { x with phase := .running, onEngine := e, bytes := s.capAll j c }).seeded
    else s
  | none => s

/-- CAPTURE_COMPLETE (R437): a copy finishes, or a capture that failed at its firing, or that no engine is left for, reports. -/
def completeCapture (s : State) (j k : Nat) : State :=
  match s.cap? j k with
  | some c =>
    let whole := s.capMix c.bytes (s.capAll j c)
    let e := (s.capEngineOf c).getD (if c.engine < 2 then c.engine else 0)
    let done := match c.phase with
      | .running =>
        if c.status ≠ 0 then some (s.endCapture j c c.status c.reason c.bytes)
        else some (s.seeded.endCapture j c (if whole.length < c.len then 3 else 0) 0 whole)
      | .fired =>
        if c.status ≠ 0 then some (s.endCapture j { c with onEngine := e } c.status c.reason [])
        else if (s.capEngineOf c).isNone then some (s.endCapture j { c with onEngine := e } 3 0 []) else none
      | _ => none
    match done with
    | some s =>
      let clears := s.outs.filter fun o => o.h.job == j && o.phase == .running && o.cmd == .captureClear k
      let s := clears.foldl (fun s o => s.finish o.uid 0 0 0) s
      if clears.isEmpty then s else s.modJob j fun b => { b with caps := b.caps.filter fun x => x.slot != k }
    | none => s
  | none => s

end State
end Sys2Proof.Machine
end

