-- ==== Sys2Proof/Machine/PlaceCmds.lean ====
section
/-! DEFINITION. What the placement commands do as they take effect (R235-R248), and the events of moves, scrubs, stacks and touches (R230,
R240, R242, R259, R392). -/

namespace Sys2Proof.Machine
namespace State

/-- A job context's number in range, in one of the states 1-6 (R368). -/
def jobLive (s : State) (j : Nat) : Bool := let st := (s.job j).state; decide (j < 8) && 1 ≤ st && st ≤ 6

/-- The object `n`, whichever job owns it (R390, R497). -/
def obj? (s : State) (n : Nat) : Option Obj := s.objs.find? fun o => o.num == n

/-- Runs `f` on a named object, or fails the command (R368, R497; log entry 23). -/
def withObj (s : State) (o : Out) (n : Nat) (f : Obj → State) : State :=
  if !s.jobLive o.h.job then s.fail o.uid 2
  else if 16384 ≤ n then s.fail o.uid 6
  else
    match s.obj? n with
    | some x => f x
    | none => s.fail o.uid 3

/-- A parameter of OBJ_MAP lies outside its range (R235, R497). -/
def mapBad (p : ObjMap) : Bool :=
  p.first % 65536 ≠ 0 || p.first < 0x100000000000 || 0x180000000000 < p.first + 65536 * p.count || p.count = 0 || 2 ≤ p.layout ||
    (p.layout = 1 && (16 ≤ p.fmt || fmtReserved p.fmt)) || 4 ≤ p.block || 64 ≤ p.group

/-- Mapped blocks of the tiered range. -/
def mappedCount (s : State) : Nat := (s.blks.filter fun b => b.state != BState.unmapped).length

/-- A free object number, which the device chooses (R235; log entry 22). -/
def freeObj (s : State) : Nat :=
  let k := Config.free s.free 67 0 % 16384
  let used (n : Nat) : Bool := s.objs.any fun o => o.num == n
  (((List.range 16384).map fun i => (k + i) % 16384).find? fun n => !used n).getD 0

/-- OBJ_MAP (R235, R236). -/
def objMapEffect (s : State) (o : Out) (p : ObjMap) : State :=
  if !s.jobLive o.h.job then s.fail o.uid 2
  else
    let first := (p.first - 0x100000000000) / 65536
    if mapBad p || s.objs.any (fun x => first < x.first + x.count && x.first < first + p.count) then s.fail o.uid 6
    else if 16384 ≤ s.objs.length || s.memReg.tieredMib * 16 < s.mappedCount + p.count || s.freeFrames 0 + s.freeFrames 1 < p.count then s.fail o.uid 3
    else
      let n := s.freeObj
      let tier := bits p.flags 1 1
      let x : Obj := ⟨n, first, p.count, p.layout, p.fmt, p.block, if p.group < 32 then p.group else 63, o.h.job, bit p.flags 0, tier, 0, p.rows, p.cols⟩
      let s := ({ s with objs := s.objs ++ [x] }).seeded
      let s := ((List.range p.count).map (· + first)).foldl (fun s b => (s.mapBlk tier b).seeded) s
      s.finish o.uid 0 0 n

/-- OBJ_UNMAP (R239). -/
def objUnmapEffect (s : State) (o : Out) (n : Nat) : State := s.withObj o n fun x => (s.dropObject x 3).finish o.uid 0 0 0

/-- PLACE_RISE and PLACE_SINK (R244, R247). -/
def intentEffect (s : State) (o : Out) (rise : Bool) (n first count : Nat) : State :=
  s.withObj o n fun x =>
    if x.count < first + count then s.fail o.uid 6
    else if count = 0 then s.finish o.uid 0 0 0
    else
      let l := (List.range count).map (· + (x.first + first))
      let s := s.modOut o.uid fun y => { y with blocks := l }
      l.foldl (fun s b => s.acceptIntent ⟨b, rise, 1, .command o.uid⟩) s

/-- Blocks of the objects with a pin. -/
def pinnedBlocks (s : State) : Nat := (s.objs.filter fun x => x.pins ≠ 0).foldl (fun n x => n + x.count) 0

/-- Blocks of the held regions of every window (R248, R254). -/
def heldBlocks (s : State) : Nat := (s.blks.filter fun b => s.windowHeld b.idx).length

/-- Sets an object's pin count. -/
def setPins (s : State) (n pins : Nat) : State := { s with objs := s.objs.map fun x => if x.num == n then { x with pins } else x }

/-- PIN (R248; log entry 24). -/
def pinEffect (s : State) (o : Out) (n : Nat) : State :=
  s.withObj o n fun x =>
    if x.pins = 65535 then s.fail o.uid 6
    else if x.pins = 0 && s.frames 0 - s.heldBlocks < s.pinnedBlocks + x.count then s.fail o.uid 3
    else
      let s := s.setPins n (x.pins + 1)
      let s := if x.pins = 0 then ((List.range x.count).map (· + x.first)).foldl (fun s b => s.acceptIntent ⟨b, true, 2, .pin n⟩) s else s
      s.finish o.uid 0 0 (x.pins + 1)

/-- UNPIN (R248). -/
def unpinEffect (s : State) (o : Out) (n : Nat) : State :=
  s.withObj o n fun x =>
    if x.pins = 0 then s.finish o.uid 0 0 0
    else
      let s := s.setPins n (x.pins - 1)
      let s := if x.pins = 1 then { s with intents := s.intents.filter fun (i : Intent) => i.origin != .pin n } else s
      s.finish o.uid 0 0 (x.pins - 1)

/-- The object record of R237. -/
def objRecord (s : State) (x : Obj) : List Byte :=
  let mine := s.blks.filter fun b => b.state != BState.unmapped && x.first ≤ b.idx && b.idx < x.first + x.count
  let tiled := decide (x.layout = 1)
  leBytes 8 (pack [(0, 27, x.first), (32, 28, x.count)]) ++
    leBytes 8 (pack [(0, 4, x.layout), (4, 4, if tiled then x.fmt else 0), (8, 2, if tiled && fmtScaled x.fmt then x.block else 0), (16, 6, x.group),
      (24, 3, x.owner), (27, 1, b2n x.snap), (28, 1, x.initTier), (32, 16, x.pins)]) ++
    leBytes 8 (pack [(0, 32, if tiled then x.rows else 0), (32, 32, if tiled then x.cols else 0)]) ++
    leBytes 8 (pack [(0, 28, (mine.filter fun b => b.tier == 0).length), (28, 28, (mine.filter fun b => (s.moveOf b.idx).isSome).length)])

/-- The block record of R238. -/
def blkRecord (s : State) (b : Nat) : List Byte :=
  match s.blk? b with
  | some k =>
    let wait := s.intents.find? fun i => i.block == b
    let act := s.moveOf b
    let intent := match wait, act with
      | some i, _ => if i.rise then 1 else 2
      | none, some m => if m.for_.isEmpty then 0 else if m.tier = 0 then 1 else 2
      | none, none => 0
    let cls := match act, wait with
      | some m, _ => m.cls
      | none, some i => i.cls
      | none, none => 0
    let image := k.image.isSome || s.kept.any fun x => x.1 == b
    leBytes 8 (pack [(0, 3, k.state.code), (3, 1, k.tier), (4, 4, if k.tier = 0 then k.stack else 0), (8, 1, b2n k.poisoned), (9, 1, b2n image),
      (10, 1, b2n ((act.map (·.cow)).getD false)), (11, 2, intent), (13, 2, cls), (15, 1, b2n (s.held b)), (16, 16, k.access)])
  | none => leBytes 8 (pack [(9, 1, b2n (s.kept.any fun x => x.1 == b))])

/-- PLACE_QUERY (R237, R238, R247). -/
def placeQueryEffect (s : State) (o : Out) (n first count buf : Nat) : State :=
  s.withObj o n fun x =>
    if 4096 < count || x.count < first + count then s.fail o.uid 6
    else s.answer o buf (s.objRecord x ++ ((List.range count).flatMap fun i => s.blkRecord (x.first + first + i))) x.count

/-- A move's last request is acknowledged, or its source holds an uncorrectable error (R228, R239, R240). -/
def moveCommit (s : State) (b : Nat) (err : Bool) : State :=
  match s.moveOf b with
  | some m => if err then s.failMove m else s.commitMove b
  | none => s

/-- A copy-on-write commits (R242). -/
def cowCommit (s : State) (b : Nat) : State :=
  match s.moveOf b with
  | some m => if m.cow then s.commitMove b else s
  | none => s

/-- The address lies in a mapped block, or in a backed part of the host region or the heart window (R228). -/
def backs (s : State) (a : Nat) : Bool :=
  match s.region a with
  | .tiered b => s.mapped b
  | .host | .heart => true
  | _ => false

/-- A slice's patrol reads the memory that holds address `a` (R226, R228, R230); an uncorrectable error in memory that backs no block is counted. -/
def patrol (s : State) (heart : Bool) (slice a err : Nat) : State :=
  if err = 1 then
    if s.backs a then (if s.sliceOf a = (if heart then 0 else 1, slice) then s.eccCorrect a else s)
    else
      let m := s.memReg
      if heart then
        { s with memReg := { m with heartEcc := bump64 m.heartEcc 1
                                    hbms := modAt m.hbms (slice / 16) fun h => { h with corrected := satAdd 32 h.corrected 1 } } }
      else
        { s with memReg := { m with baseEcc := bump64 m.baseEcc 1
                                    chans := modAt m.chans slice fun c => { c with corrected := satAdd 32 c.corrected 1 } } }
  else if err = 2 && s.backs a && !s.poisoned a && s.sliceOf a = (if heart then 0 else 1, slice) then
    s.spoilAt a 2
  else if err = 2 && !s.backs a then { s with memReg := { s.memReg with strayErrs := s.memReg.strayErrs + 1 } }
  else s

/-- Heart blocks that lie on stack `k` (R215, R392). -/
def onStack (s : State) (k : Nat) : List Nat :=
  (s.blks.filter fun b => b.state != BState.unmapped && b.tier == 0 && b.stack == k && !b.poisoned).map (·.idx)

/-- A stack fails at run time: every block on it is poisoned (R392). -/
def stackFails (s : State) (k : Nat) : State :=
  if (s.memReg.hbms.getD k ⟨false, false, 0, false⟩).inUse then
    let s := { s with memReg := { s.memReg with hbms := modAt s.memReg.hbms k fun h => { h with broken := true } } }
    let s := (s.onStack k).foldl (fun s b =>
      s.spoilAt (blkAddr b) (if (s.moveOf b).isSome then 3 else 0)) s
    let s := (s.moves.filter fun m => m.tier == 0 && m.stack == k).foldl (fun s m => s.requeueMove m) s
    let starts := (s.heartAreas.flatMap fun r => (List.range (r.2 / 65536)).map fun i => r.1 + 65536 * i).filter fun a => s.heartStack a == k
    let listed := starts.filter fun a => !(s.mem.slice a 65536).isEmpty && !s.poisoned a
    listed.foldl (fun s a => s.poisonAt a 0) s
  else s

/-- Source blocks of a descriptor in the tiered range (R54). -/
def sourceBlocks (i : Item) : List Nat :=
  (i.pieces.filterMap fun p => p.src.bind fun o => match srcDest i o with
    | .mem a => if 0x100000000000 ≤ a && a < 0x180000000000 then some ((a - 0x100000000000) / 65536) else none
    | _ => none).eraseDups

/-- A touch of block `b` from core `n` reaches the directory (R54, R229, R259). -/
def touchArrives (s : State) (n b : Nat) : State :=
  match s.core? n with
  | some c =>
    let ahead := (c.dma.q.filter fun i => i.phase != .running).take (min 64 c.cpu.rafDepth)
    match ahead.find? fun i => (sourceBlocks i).contains b && !c.touches.contains (i.uid, b), c.job with
    | some i, some j =>
      let live := c.dma.q.map (·.uid)
      let s := s.modCore n fun c => { c.count 20 1 with touches := (c.touches.filter fun t => live.contains t.1) ++ [(i.uid, b)] }
      let mine := match s.objOf b with
        | some o => o.owner == j && s.mapped b
        | none => false
      if !mine then (s.modCore n fun c => { c with pfDropped := bump64 c.pfDropped 1 }).devCount 0xC 0 1
      else
        match s.blk? b with
        | some k =>
          if k.state == .base && !k.poisoned && !s.windowHeld b && !(s.intents.any fun x => x.block == b) && 0 < s.freeFrames 0 then
            s.acceptIntent ⟨b, true, 0, .touch⟩
          else s
        | none => s
    | _, _ => s
  | none => s

end State
end Sys2Proof.Machine
end

