-- ==== Sys2Proof/Machine/WinOps.lean ====
section
/-! DEFINITION. Stream windows (R251-R258, R260): the commands that set, start and stop them, their cursor, rises, lateness and restarts. -/

namespace Sys2Proof.Machine

namespace Win

/-- The window reverses at its end (R251). -/
def turnaround (w : Win) : Bool := bit w.flags 0
/-- A PREDICTED window (R251). -/
def predicted (w : Win) : Bool := bit w.flags 1

/-- The groups the cursor moves over, as region indices: single regions, or the experts of one layer (R253, R257; log entry 25). -/
def groups (w : Win) : List (List Nat) :=
  let all := List.range w.list.length
  if w.predicted then
    let layer (i : Nat) : Nat := (w.list.map (·.layer)).getD i 0
    (w.list.map (·.layer)).eraseDups.map fun l => all.filter fun i => layer i == l
  else all.map fun i => [i]

/-- Regions of group `g`. -/
def group (w : Win) (g : Nat) : List Nat := w.groups.getD g []

/-- Planned start of a region in a direction (R253, R256). -/
def planned (w : Win) (rev : Bool) (r : Nat) : Int :=
  match w.list[r]? with
  | some x => w.start + ((w.runs * w.periodNs + (if rev then x.bwd else x.fwd) : Nat) : Int)
  | none => w.start

/-- Planned start of a group: that of its first region (log entry 25). -/
def groupPlanned (w : Win) (rev : Bool) (g : Nat) : Int := w.planned rev ((w.group g).headD 0)

/-- The groups of the ahead set (R254). -/
def ahead (w : Win) : List Nat :=
  let n := w.groups.length
  if w.reverse then ((List.range (w.depth + 1)).filterMap fun i => if i ≤ w.cursor then some (w.cursor - i) else none).filter (· < n)
  else ((List.range (w.depth + 1)).map (· + w.cursor)).filter (· < n)

/-- The group to which the cursor moves next, its direction then; `none` at the end of the run (R253). -/
def next (w : Win) : Option (Nat × Bool) :=
  if w.reverse then (if w.cursor = 0 then none else some (w.cursor - 1, true))
  else if w.cursor + 1 < w.groups.length then some (w.cursor + 1, false)
  else if w.turnaround then some (w.cursor, true)
  else none

end Win

namespace State

/-- Window `n` of job `j`. -/
def win? (s : State) (j n : Nat) : Option Win := (s.job j).wins.find? fun w => w.num == n

/-- Replaces window `n` of job `j` by `f` of it. -/
def modWin (s : State) (j n : Nat) (f : Win → Win) : State :=
  s.modJob j fun b => { b with wins := b.wins.map fun w => if w.num == n then f w else w }

/-- Replaces regions of a window. -/
def modRegions (s : State) (j n : Nat) (rs : List Nat) (f : WinRegion → WinRegion) : State :=
  s.modWin j n fun w => { w with list := w.list.zipIdx.map fun x => if rs.contains x.2 then f x.1 else x.1 }

/-- Intents that a window's regions have queued are withdrawn; rises already copying run to commit (R254, R256; log entry 25). -/
def dropWinIntents (s : State) (j n : Nat) (rs : List Nat) : State :=
  let mine (i : Intent) : Bool := match i.origin with
    | .window a b r => a == j && b == n && rs.contains r
    | _ => false
  { s with intents := s.intents.filter fun i => !mine i }

/-- Releases regions (R254). -/
def releaseRegions (s : State) (j n : Nat) (rs : List Nat) : State :=
  (s.modRegions j n rs fun r => { r with held := false }).dropWinIntents j n rs

/-- Raises the blocks of a region at a class, counting those it skips (R252, R254). -/
def raiseRegion (s : State) (j n r cls : Nat) : State :=
  match (s.win? j n).bind fun w => w.list[r]? with
  | some x =>
    let s := s.modRegions j n [r] fun r => { r with held := true }
    let first := (x.addr - 0x100000000000) / 65536
    ((List.range x.blocks).map (· + first)).foldl (fun s b =>
      if s.regionCovers j n x b && s.mapped b then s.acceptIntent ⟨b, true, cls, .window j n r⟩
      else s.modWin j n fun w => { w with skipped := w.skipped + 1 }) s
  | none => s

/-- The version and the bitmap of group `g` in the route table (R258). -/
def routeVersion (s : State) (w : Win) (g : Nat) : Nat := s.fwField (w.routeAddr + 68 * g) 4
def routeUses (s : State) (w : Win) (g e : Nat) : Bool := (s.fwField (w.routeAddr + 68 * g + 4) 64).testBit e

/-- The experts that a PREDICTED window raises of a group: the highest counts of the histogram, ties to the lower expert (R257). -/
def predictedOf (s : State) (w : Win) (g : Nat) : List Nat :=
  let score (r : Nat) : Nat := s.fwField (w.histAddr + 4 * r) 4
  let expert (r : Nat) : Nat := (w.list.map (·.expert)).getD r 0
  let better (a b : Nat) : Bool := score b < score a || (score a == score b && expert a < expert b)
  (w.group g).filter fun r => ((w.group g).filter fun x => x != r && better x r).length < w.predict

/-- Groups that come into the ahead set have their experts chosen (R257). -/
def enterGroups (s : State) (j n : Nat) (before : List Nat) : State :=
  match s.win? j n with
  | some w =>
    (w.ahead.filter fun g => !before.contains g).foldl (fun s g =>
      let keep := if w.predicted then s.predictedOf w g else w.group g
      let s := s.modRegions j n ((w.group g).filter fun r => !keep.contains r) fun r => { r with chosen := false }
      s.modRegions j n keep fun r => { r with chosen := true }) s
  | none => s

/-- The job's windows run: it is resident and not stopping (R260). -/
def winsRun (s : State) (j : Nat) : Bool := let st := (s.job j).state; st = 3 || st = 4 || st = 6

/-- Rises of a window's ahead set whose time has come start (R254). -/
def startRises (s : State) (j n : Nat) : State :=
  match s.win? j n with
  | some w =>
    if w.active && s.winsRun j then
      w.ahead.foldl (fun s g =>
        if w.groupPlanned w.reverse g - (w.leadNs : Int) ≤ (s.now : Int) then
          ((w.group g).filter fun r => ((w.list[r]?).map fun x => x.chosen && !x.held).getD false).foldl (fun s r =>
            (s.raiseRegion j n r 2).modWin j n fun w => { w with versions := w.versions.set g (s.routeVersion w g) }) s
        else s) s
    else s
  | none => s

/-- The wardens read the route versions of the held layers of a predicted window (R258). -/
def readRoutes (s : State) (j n : Nat) : State :=
  match s.win? j n with
  | some w =>
    if w.active && w.predicted && s.winsRun j then
      (List.range w.groups.length).foldl (fun s g =>
        let rs := w.group g
        let held (r : Nat) : Bool := ((w.list[r]?).map (·.held)).getD false
        let v := s.routeVersion w g
        if rs.any held && v ≠ w.versions.getD g 0 then
          let uses (r : Nat) : Bool := s.routeUses w g ((w.list.map (·.expert)).getD r 0)
          let s := s.modWin j n fun w => { w with versions := w.versions.set g v }
          let off := rs.filter fun r => held r && !uses r
          let on := rs.filter fun r => !held r && uses r
          let s := (s.releaseRegions j n off).modRegions j n off fun r => { r with chosen := false }
          on.foldl (fun s r => s.raiseRegion j n r 3) (s.modRegions j n on fun r => { r with chosen := true })
        else s) s
    else s
  | none => s

/-- The window's run ends: every region is released (R253, R256). -/
def endRun (s : State) (j n : Nat) : State :=
  match s.win? j n with
  | some w => (s.releaseRegions j n (List.range w.list.length)).modWin j n fun w => { w with
      active := w.active && 0 < w.periodNs, cursor := w.groups.length, reverse := false }
  | none => s

/-- A run begins: the cursor at region 0, going forward; regions held stay held (R253, R256). -/
def beginRun (s : State) (j n k : Nat) : State :=
  let s := s.modWin j n fun w => { w with
    cursor := 0, reverse := false, runs := k
    list := w.list.map fun r => { r with seen := false, late := false, ashed := false, chosen := false } }
  s.enterGroups j n []

/-- The regions of a list as it lies in memory (R252). -/
def readRegions (bs : List Byte) (n : Nat) : List WinRegion :=
  (List.range n).map fun i =>
    let e := bytesAt bs (32 * i) 32
    ⟨fieldAt e 0 8, fieldAt e 8 4, fieldAt e 12 2, fieldAt e 14 2, fieldAt e 16 8, fieldAt e 24 8, false, false, false, false, false⟩

/-- WIN_SET (R251, R252; log entry 26). -/
def winSetEffect (s : State) (o : Out) (n a : Nat) : State :=
  if !s.jobLive o.h.job then s.fail o.uid 2
  else if 32 ≤ n then s.fail o.uid 6
  else
    match s.fwRead a 64 with
    | none => s.fail o.uid 0
    | some d =>
      let f (i k : Nat) : Nat := fieldAt d i k
      let bad := f 8 2 = 0 || 4096 < f 8 2 || f 10 1 = 0 || 8 < f 10 1 || f 0 8 % 32 ≠ 0 || 4 ≤ f 11 1 || (bit (f 11 1) 1 && (f 12 4 = 0 || 512 < f 12 4))
      if bad then s.fail o.uid 6
      else
        let old := s.win? o.h.job n
        let w0 : Win := (old.getD ⟨n, 0, 0, 1, 0, 0, 0, 0, 0, 0, 0, false, 0, 0, 0, false, [], 0, 0, []⟩)
        let w : Win := { w0 with listAddr := f 0 8, regions := f 8 2, depth := f 10 1, flags := f 11 1, predict := f 12 4, leadNs := f 16 8, lateNs := f 24 8,
                                 periodNs := f 32 8, histAddr := f 40 8, routeAddr := f 48 8 }
        (s.modJob o.h.job fun b => { b with wins := (b.wins.filter fun x => x.num != n) ++ [w] }).finish o.uid 0 0 0

/-- WIN_START arms the window at take-up; S is the release time or the take-up time (R253, R338). -/
def winStartEffect (s : State) (o : Out) (n : Nat) : State :=
  if !s.jobLive o.h.job then s.fail o.uid 2
  else if 32 ≤ n then s.fail o.uid 6
  else
    match s.win? o.h.job n with
    | none => s.fail o.uid 3
    | some w =>
      match s.fwRead w.listAddr (32 * w.regions) with
      | none => s.fail o.uid 0
      | some bs =>
        let start := o.h.rt.getD s.now
        let s := s.endRun o.h.job n
        let s := s.modWin o.h.job n fun w => { w with active := true, start := (start : Int), list := readRegions bs w.regions, late := 0, skipped := 0,
                                                      versions := List.replicate w.regions 0 }
        let s := s.beginRun o.h.job n 0
        if s.now < start then s.modOut o.uid fun o => { o with phase := .armed } else s.finish o.uid 0 0 start

/-- WIN_STOP (R256). -/
def winStopEffect (s : State) (o : Out) (n : Nat) : State :=
  if !s.jobLive o.h.job then s.fail o.uid 2
  else if 32 ≤ n then s.fail o.uid 6
  else
    match s.win? o.h.job n with
    | none => s.fail o.uid 3
    | some _ => ((s.endRun o.h.job n).modWin o.h.job n fun w => { w with active := false }).finish o.uid 0 0 0

/-- The cursor of a window moves on (R253): at the planned start of the next region, or at the first demand request to it. -/
def advanceCursor (s : State) (j n : Nat) (byTime : Bool) : State :=
  match s.win? j n with
  | some w =>
    if !w.active || !s.winsRun j || w.groups.length ≤ w.cursor then s
    else
      match w.next with
      | none => if byTime then s.endRun j n else s
      | some (g, rev) =>
        let turn := rev && !w.reverse
        let seen := (w.group g).any fun r => ((w.list[r]?).map (·.seen)).getD false
        if byTime || (seen && !turn) then
          let s := if byTime then s.timeTo (w.groupPlanned rev g).toNat else s
          let before := w.ahead
          let s := s.modWin j n fun w => { w with
            cursor := g, reverse := rev
            list := if turn then w.list.map fun r => { r with seen := false } else w.list }
          let s := if turn then s else s.releaseRegions j n (w.group w.cursor)
          let s := s.enterGroups j n before
          if s.now % Config.tickNs = 0 then s.startRises j n else s
        else s
  | none => s

/-- Blocks of a region that a window may move and whose home copy is not in the heart tier (R252, R255). -/
def notRisen (s : State) (j n : Nat) (x : WinRegion) : Nat :=
  let first := (x.addr - 0x100000000000) / 65536
  (((List.range x.blocks).map (· + first)).filter fun b => s.regionCovers j n x b && (match s.blk? b with
    | some k => k.state != .unmapped && k.tier == 1
    | none => false)).length

/-- The grace of a region has passed: one Ash record if its rises have not all committed (R255, R494). -/
def lateRecord (s : State) (j n r : Nat) : State :=
  match s.win? j n with
  | some w =>
    match w.list[r]? with
    | some x =>
      let t := w.planned w.reverse r
      let s := s.timeTo (t + (w.lateNs : Int)).toNat
      let left := s.notRisen j n x
      if w.active && x.chosen && !x.ashed && 0 < left then
        (s.modRegions j n [r] fun r => { r with ashed := true }).ashWrite 5 5 (n + 256 * j)
          [(32, 1, j), (33, 1, n), (34, 2, r), (36, 4, w.runs), (40, 8, t.toNat), (48, 4, left)] [regTimeNow]
      else s
    | none => s
  | none => s

/-- A periodic window restarts at its next start (R256). -/
def restartWin (s : State) (j n : Nat) : State :=
  match s.win? j n with
  | some w =>
    if w.active && 0 < w.periodNs && s.winsRun j then
      let t := w.start + (((w.runs + 1) * w.periodNs : Nat) : Int)
      ((s.timeTo t.toNat).endRun j n).beginRun j n (w.runs + 1)
    else s
  | none => s

/-- At a tick, every window reads its routes and starts the rises whose time has come (R254, R258). -/
def tickWins (s : State) : State :=
  (List.range 8).foldl (fun s j => ((s.job j).wins.map (·.num)).foldl (fun s n => (s.readRoutes j n).startRises j n) s) s

/-- At resume, the time during which the job was not resident is added to the start of its windows (R260). -/
def shiftWins (s : State) (j : Nat) : State :=
  let d : Int := ((s.now : Nat) : Int) - (((s.job j).awaySince : Nat) : Int)
  s.modJob j fun b => { b with wins := b.wins.map fun w => { w with start := w.start + d } }

end State
end Sys2Proof.Machine
end

