-- ==== Sys2Proof/Machine/Grid.lean ====
section
/-! DEFINITION. Placing a job's grid on physical cores (R261), its program (R364), and what the firmware places in a core (R42, R365, R423). -/

namespace Sys2Proof.Machine

/-- A free core: LCN, lead, die. -/
structure FreeCore where
  lcn : Nat
  lead : Bool
  die : Nat
  deriving DecidableEq, Repr

/-- The lowest free core of a die that is, or is not, a lead core (R261). -/
def lowestOf (free : List FreeCore) (d : Nat) (lead : Bool) : Option FreeCore := free.find? fun c => c.die == d && c.lead == lead

/-- The die order from die `d` on. -/
def diesFrom (order : List Nat) (d : Nat) : List Nat := (order.dropWhile (· != d)) ++ order.takeWhile (· != d)

/-- The core that one cell of a row takes: on die `d` of a row that lies whole on one die, or on the dies in order (R261; log entry 28). -/
def takeFor (order : List Nat) (whole : Option Nat) (lead : Bool) (free : List FreeCore) : Option FreeCore :=
  match whole with
  | some d =>
    if lead then (diesFrom order d).findSome? fun x => lowestOf free x true
    else (lowestOf free d false).or (lowestOf free d true)
  | none =>
    match order.find? fun d => free.any fun c => c.die == d with
    | some d =>
      if lead then (diesFrom order d).findSome? fun x => lowestOf free x true
      else ((diesFrom order d).findSome? fun x => lowestOf free x false).or (lowestOf free d true)
    | none => none

/-- Places the cells of one row: the cells with their cores, and the cores still free. -/
def placeRow (order : List Nat) (leads : List Nat) (cells : List Nat) (free : List FreeCore) : Option (List (Nat × Nat) × List FreeCore) :=
  let whole := order.find? fun d => cells.length ≤ (free.filter fun c => c.die == d).length
  cells.foldl (fun acc cell =>
    match acc with
    | some (l, fr) => (takeFor order whole (leads.contains cell) fr).map fun c => (l ++ [(cell, c.lcn)], fr.filter fun x => x.lcn != c.lcn)
    | none => none) (some ([], free))

/-- Places the cells that `want` names, row by row (R261). -/
def placeGrid (order : List Nat) (gx gy : Nat) (leads : List Nat) (want : Nat → Bool) (free : List FreeCore) : Option (List (Nat × Nat)) :=
  ((List.range gy).foldl (fun acc y =>
    match acc with
    | some (l, fr) =>
      let cells := ((List.range gx).map fun x => y * gx + x).filter want
      (placeRow order leads cells fr).map fun r => (l ++ r.1, r.2)
    | none => none) (some (([] : List (Nat × Nat)), free))).map (·.1)

namespace State

/-- The dies by ascending temperature step, ties to the lower number (R261). -/
def dieOrder (s : State) : List Nat :=
  let step (d : Nat) : Int := s.hottest (16 * d) 16 / 16
  let before (a b : Nat) : Bool := step a < step b || (step a == step b && a < b)
  (List.range 4).filterMap fun k => (List.range 4).find? fun d => ((List.range 4).filter fun x => before x d).length == k

/-- A core can take new work (R20, R261). -/
def coreFree (c : Core) : Bool := c.avail && c.cpu.st != .fenced && c.job.isNone

/-- The free cores, with those of the jobs in a list counted as free. -/
def freeList (s : State) (also : List Nat) : List FreeCore :=
  s.cores.zipIdx.filterMap fun c =>
    if coreFree c.1 || (c.1.avail && c.1.cpu.st != .fenced && (c.1.job.map fun j => also.contains j) == some true)
    then some ⟨c.2, c.1.lead, dieOf c.1.phys⟩ else none

/-- Why a program cannot be loaded, as a reason: unreadable or a wrong magic 0, a length out of range 6 (R361, R364). -/
def programBad (s : State) (a : Nat) : Option Nat :=
  match s.fwRead a 64 with
  | none => some 0
  | some h =>
    if fieldAt h 0 4 ≠ 0x4B545047 then some 0
    else if fieldAt h 4 2 = 0 || 16384 < fieldAt h 4 2 then some 6
    else if (s.fwRead (a + 64) (16 * fieldAt h 4 2)).isNone then some 0
    else none

/-- What the firmware loads from a job's program with the job's seed: program SRAM, CORE_JOBCFG, SYNC_OWNER0-2 (R40, R55, R143, R364). -/
def loadProgram (s : State) (b : Job) (c : Cpu) : Cpu :=
  let h := (s.fwRead b.program 64).getD []
  let w := fieldAt h 8 18
  { c with
    prog := if 0x100000000 ≤ b.program && b.program < 0x200000000 then Memory.write [] 0 ((s.fwRead (b.program + 64) (16 * fieldAt h 4 2)).getD [])
      else s.mem.slice (b.program + 64) (16 * fieldAt h 4 2)
    banked := bit (fieldAt h 6 1) 0, rafDepth := bits (fieldAt h 6 1) 7 1
    owners := (List.range 48).map fun i => bits w (3 * i + 2) (3 * i)
    seed := BitVec.ofNat 64 b.seed }

/-- The registers of R365; a re-placed cell has its count of re-placements in S4 (R396). -/
def startRegs (b : Job) (cell : Nat) (lead : Bool) (s4 : Nat) : List Word :=
  [BitVec.ofNat 64 cell, BitVec.ofNat 64 (b2n lead), BitVec.ofNat 64 b.argument, BitVec.ofNat 64 (b.gx + 256 * b.gy), BitVec.ofNat 64 s4] ++
    List.replicate 27 0

/-- The selections of a cell: counter n selects n + 1 until COUNTER_SELECT changes it (R423, R424). -/
def cellSels (b : Job) (cell : Nat) : List Nat :=
  b.sels.foldl (fun l x => if x.1 = cell then l.set x.2.1 x.2.2 else l) ((List.range 16).map (· + 1))

/-- The counters a mask names reset in the core's present cycle (R425, R426). -/
def resetCounters (mask : Nat) (c : Core) : Core :=
  let o := c.obs
  { c with obs := { o with resetMask := mask, resetCycle := c.cpu.cycle, prev := o.cnt, cnt := o.cnt.zipIdx.map fun x => if mask.testBit x.2 then 0 else x.1 } }

/-- The registers, comparators and semaphores as JOB_LOAD leaves them, with the values of R365 (R42). -/
def clearRegs (b : Job) (cell : Nat) (lead : Bool) (s4 : Nat) (c : Cpu) : Cpu :=
  { c with
    st := .idle, ended := false, pc := 0, lastPc := 0, brs := [], sregs := startRegs b cell lead s4, lcs := List.replicate 16 0
    ks := List.replicate 8 false, sems := List.replicate 48 0, rets := [], pend := [], moves := [], sups := [], waits := [], evals := [], seqTime := none
    array := { c.array with q := [], run := [] } }

/-- The firmware places cell `cell` of job `j` on core `n`: everything of R42 and R365 (R40, R55, R68, R131, R423); DMA_FAIL_LAST and
CORE_FAULT are cleared at JOB_LOAD only (R68, R291), and requests on their way to the core's window stay (R280). -/
def placeCore (s : State) (j cell n s4 : Nat) (lead keep : Bool) : State :=
  let b := s.job j
  s.modCore n fun c =>
    let u := clearRegs b cell lead s4 (s.loadProgram b c.cpu)
    let c1 := { c with
      job := some j, cell, touches := [], stopSent := false, withheld := false
      dma := { Dma.reset with
        nextUid := c.dma.nextUid, bufs := c.dma.bufs, waiting := c.dma.waiting, tracked := c.dma.tracked
        failLast := if keep then c.dma.failLast else Dma.reset.failLast }
      cpu := { u with tiles := List.replicate 16 none, ovf := false, passOverrun := false, flt := if keep then c.cpu.flt else .none }
      obs := { c.obs with sel := cellSels b cell } }
    resetCounters 0xFFFF c1

/-- The cell that a placed core holds has its LCN in the grid map (R262, R263). -/
def mapCell (s : State) (j cell n : Nat) : State :=
  s.modJob j fun b => { b with cells := modAt b.cells cell fun c => { c with lcn := n, valid := true } }

end State
end Sys2Proof.Machine
end

