-- ==== Sys2Proof/Machine/StopOps.lean ====
section
/-! DEFINITION. Stopping a core, saving it, settling its items, and restoring it (R202-R204, R286-R288, R378-R388). -/

namespace Sys2Proof.Machine

/-- Rows of move-slot operations are not written after a stop (R380). -/
def isRow : Act → Bool
  | .row _ _ | .scr _ | .readTld _ _ _ | .readTst _ _ _ | .readArd _ _ _ => true
  | _ => false

/-- The destination rows of a stopped move instruction, unpredictable until its restart completes (R380). -/
def rowsOpen (sd k : Nat) (c : Cpu) (m : Nat × List Act) : Cpu :=
  m.2.zipIdx.foldl (fun c r =>
    let es (pos : Nat) : List Elem := (List.range 128).map fun i => ⟨pos + 8 * i, 8, Config.free sd (69 + 64 * (r.2 + 256 * k)) i % 256⟩
    match r.1 with
    | .readTld reg _ _ => { c with vfile := writeElems vfileBytes c.vfile (es (reg * 1024)) }
    | .readArd reg _ _ => { c with vfile := writeElems vfileBytes c.vfile (es (reg * 1024)) }
    | .readTst _ addr _ => { c with scratch := writeElems scratchBytes c.scratch (scrRow addr (es 0)) }
    | _ => c) c

/-- A core's execution state 64 cycles after a stop in its present cycle (R96, R202, R204, R379, R380): what had issued has landed, what the
array held is in the issue state, waits not satisfied by then are kept for saving. -/
def stopCpu (sd : Nat) (c0 : Cpu) : Cpu :=
  let c := c0.endCycle
  let armed := c.waits.filter fun w => w.wakeAt.isNone
  let q := Cpu.issueState c.array
  let q := if c.waits.any (fun w => w.eng == engArr && w.wakeAt.isSome) then Cpu.dropMwait q else q
  let moves := c.moves
  let u := { c with array := Cpu.stopArray c.array, pend := c.pend.filter fun p => !isRow p.act, waits := [], moves := [] }
  let u := u.runTo sd (c.cycle + 64)
  let u := moves.zipIdx.foldl (fun u m => rowsOpen sd m.2 u m.1) u
  { u with array := { u.array with q }, waits := armed.filter fun w => w.eng == engSeq || w.eng == engVec, moves, evals := [] }

/-- The control part of a save: the execution state without its four stores, which the save area holds (R67, R381). -/
def controlOf (c : Cpu) : Cpu := { c with scratch := [], vfile := [], accs := [], leadMem := [], prog := [] }

/-- What the bytes of a control record of another device spell: its layout is private to the firmware (R381; log entry 27). -/
opaque decodeControl (bytes : List Byte) : Option Save

/-- Bytes nothing is known of, as a store. -/
def freeMemory (sd purpose n : Nat) : Memory :=
  (List.range n).filterMap fun i => let b : Byte := BitVec.ofNat 8 (Config.free sd purpose i); if b = 0 then none else some (i, b)

/-- A saved wait registers again (R202). -/
def rewait (w : WaitRec) (c : Cpu) : Cpu := c.registerWait c.cycle w.eng w.sem w.target w.consume

/-- A restored core starts again at skip level `lv` and fabric time `now` with the issue state of the save `v`: passes, SWAPs and MWAITs in the queue,
then move-slot operations, then saved waits, which are evaluated before the first bundle issues (R98, R202, R380, R387). -/
def restartOn (lv sd now : Nat) (v : Cpu) (k : Core) (c : Cpu) : Core :=
  let u := { c with
    array := { c.array with q := Cpu.reenter c.cycle v.array.q }, waits := [], evals := [], moves := []
    seqTime := v.seqTime.map fun (t : Nat × Nat × Bool) => (t.1, c.cycle, decide (t.1 ≤ now)) }
  let u := v.moves.foldl (fun u m => Cpu.startMove sd u.cycle u m.2 u) (u.armWait u.cycle)
  let k := Core.runCpu sd lv (fun u => u.runTo sd (u.moves.foldl (fun x m => max x m.1) u.cycle)) { k with cpu := u }
  { k with cpu := (v.waits.foldl (fun u w => rewait w u) k.cpu).endCycle }

namespace State

/-- The items of a stopping core: none forms requests, requests in issue queues are not made, copies that wait for credit are withdrawn (R286). -/
def stopItems (s : State) (n : Nat) : State :=
  match s.core? n with
  | some c =>
    let s := c.dma.q.foldl (fun s i => s.modItem n i.uid stopForming) s
    let s := (c.dma.reqs.filter (·.queued)).foldl (fun s r => s.modItem n r.item (lowerCut r.piece.off)) s
    let s := s.modCore n fun c => { c with dma := { c.dma with reqs := c.dma.reqs.filter fun r => !r.queued } }
    let waits := s.cores.flatMap fun c => c.dma.waiting.filter fun r => r.issuer == some n
    c.dma.q.foldl (fun s i => if i.members.isEmpty then s else (s.withdraw n i.uid false).sendHeld n i.uid 1024)
      (waits.foldl (fun s r => if (c.dma.q.find? fun i => i.uid == r.item).any fun i => !i.members.isEmpty then s.modItem n r.item (lowerCut r.off) else s) s)
  | none => s

/-- A landing buffer's requests all land (R288, R379). -/
def landAllArrivals (s : State) (n : Nat) : Nat → State
  | 0 => s
  | f + 1 =>
    match s.core? n with
    | some c => if c.dma.bufs.isEmpty then s else landAllArrivals (s.landArrival n) n f
    | none => s

/-- The stop request reaches core `n`: it stops, and 64 cycles later is SAVING with its arrival path closed (R379). -/
def stopCore (s : State) (n : Nat) : State :=
  match s.core? n with
  | some c =>
    match c.job with
    | some j =>
      if c.stopSent && (c.cpu.st == .running || c.cpu.st == .stopped || c.cpu.st == .idle) then
        let code := c.stateCode
        let s := s.cutCell j c.cell 8
        let woken := c.cpu.endCycle.waits.any fun w => w.eng == engFsd && w.wakeAt.isSome
        let head := (c.dma.q.find? fun i => i.phase == .queued).map (·.uid)
        let s := s.seeded.runCore n (stopCpu s.free)
        let s := match woken, head with
          | true, some u => s.modItem n u fun i => { i with phase := .woken }
          | _, _ => s
        let s := s.modCore n fun c => { c with
          cpu := { c.cpu with st := .saving }, dma := { c.dma with closed := true }, stopSent := false, stoppedState := code, stopTime := s.now }
        let s := (s.stopItems n).landAllArrivals n 65
        let s := s.modJob j fun b => { b with cells := modAt b.cells c.cell fun x => { x with save := ⟨1, code, none, CoreObs.reset, []⟩ } }
        s.saveHeader j c.cell 1 code n s.now 0
      else s
    | none => s
  | none => s

/-- The bytes of a save area: bulk state, control record, an empty arrival log (R381, R383). -/
def saveBytes (sd : Nat) (lead : Bool) (u : Cpu) (m : Memory) (a : Nat) : Memory :=
  let m := m.paste a 0x200000 u.scratch
  let m := if lead then m.paste (a + 0x200000) 0x10000 u.leadMem else m
  let m := m.paste (a + 0x210000) 0x20000 u.vfile
  let m := m.paste (a + 0x230000) 0x40000 u.accs
  let m := m.paste (a + 0x270000) 0x2000 (freeMemory sd 68 0x2000)
  m.clear (a + 0x272040) 192

/-- Keeps what the bytes of the control record at `a` stand for (R381; log entry 27). -/
def keepControl (s : State) (a : Nat) (sv : Save) : State := { s with controls := (s.mem.read (a + 0x270000) 64, sv) :: s.controls }

/-- A request that waited while its target was SAVING goes where its cell is now (R288). -/
def rearrive (s : State) (j n : Nat) : State :=
  match s.core? n with
  | some c =>
    let l := c.dma.waiting
    let s := s.modCore n fun c => { c with dma := { c.dma with waiting := [] } }
    let s := l.foldl (fun s r => if r.member = windowMember then s.arriveWindow n r else s.arrive j r r.woff) s
    ((l.filterMap (·.issuer)).eraseDups).foldl refill s
  | none => s

/-- What the arrival path of a saved core had tracked goes on in its save area (R288). -/
def carryTracks (s : State) (j n cell : Nat) : State :=
  match s.core? n with
  | some c =>
    let l := (c.dma.tracked.filter fun t => t.member != windowMember).map fun t => (cell, (t.issuer, t.item, t.member), t.got)
    (s.modJob j fun b => { b with landed := b.landed ++ l }).modCore n fun c => { c with dma := { c.dma with tracked := c.dma.tracked.filter fun t => t.member == windowMember } }
  | none => s

/-- An entry of the DMA restart list (R382). -/
def restartEntry (c : Core) (i : Item) : List Byte :=
  let multi := decide (i.dstModeRaw = 2)
  let started := i.phase != .queued
  let bitsIf (f : Member → Bool) : Nat := if multi then bitsOf (i.members.map f) else 0
  let d := match i.deadline with
    | some d => d % 2 ^ 63 + 2 ^ 63
    | none => 0
  i.raw.take 64 ++ leBytes 4 (if started then doneUnits c i else 0) ++ leBytes 1 (b2n started + 2 * b2n multi) ++ [0, 0, 0] ++
    leBytes 72 (bitsIf (·.failed)) ++ leBytes 8 d ++
    leBytes 72 (bitsIf fun m => (((i.members.find? fun x => x.cell == m.cell).getD m)).counted || (started && i.phase == .running && i.land ≤ ((i.members.find? fun x => x.cell == m.cell).getD m).got)) ++
    leBytes 32 0

/-- Every byte of a started item is acknowledged, at every member that has not failed (R286). -/
def fullyDone (i : Item) : Bool := i.phase == .running && i.cut.isNone && i.todo.isEmpty && i.failAt.isNone && !i.timedOut && !i.ownerLost

/-- An item of a saved core that completes normally: its report and its count go to the saved image (R277, R286, R288). -/
def endSaved (s : State) (j cell n : Nat) (i : Item) : State :=
  let st := itemStatus i
  let c := (s.core? n).getD (Core.fresh 0 false 0)
  let units := if i.dstModeRaw = 2 then (if (memberBits i).any id then ceilDiv i.total 65536 else 0) else doneUnits c i
  let s := if i.rptEn then ({ s with mem := s.mem.write (saveArea j cell + i.rptAddr) (reportBytes i st units) }).logArrival j cell i.rptSem else s
  let s := match i.dstSem with
    | some m => if st = 0 && ownCount i then s.logArrival j cell m else s
    | none => s
  let s := s.modCore n fun c => { c with dma := { c.dma with failLast := if st = 0 then c.dma.failLast else ⟨i.itemId, st, true, units⟩ } }
  let s := s.coreTrace n (traceRec s.now 3 s.time.valid n 0 [(16, 2, i.itemId), (18, 1, st), (24, 8, i.word 1)])
  if st = 0 then s else s.itemRecord j st 0 i.itemId cell units ((memberBits i).filter (!·)).length

/-- The settled items of a saved core: completed, or reported ST_PREEMPTED and entered in the restart list (R286, R382, R384). -/
def settleCore (s : State) (j cell n : Nat) : State :=
  match s.core? n with
  | some c =>
    let runsOver := c.dma.q.filter fullyDone
    let keep := c.dma.q.filter fun i => !fullyDone i
    let s := runsOver.foldl (fun s i => s.endSaved j cell n i) s
    let s := keep.foldl (fun s i =>
      let units := if i.phase == .queued then 0 else doneUnits c i
      let s := s.modCore n fun c => { c with dma := { c.dma with failLast := ⟨i.itemId, 8, true, units⟩ } }
      let s := s.coreTrace n (traceRec s.now 3 s.time.valid n 0 [(16, 2, i.itemId), (18, 1, 8), (24, 8, i.word 1)])
      s.itemRecord j 8 0 i.itemId cell units ((memberBits i).filter (!·)).length) s
    let s := { s with mem := s.mem.write (saveArea j cell + 0x273000) (keep.flatMap (restartEntry c)) }
    let s := s.saveHeader j cell 2 c.stoppedState n c.stopTime keep.length
    let s := s.modJob j fun b => { b with cells := modAt b.cells cell fun x => { x with save := { x.save with state := 2, members := keep.map (·.members) } } }
    match ((s.job j).cells[cell]?).map (·.save) with
    | some sv => s.keepControl (saveArea j cell) sv
    | none => s
  | none => s

/-- A stop of job `j` that has come to its end: every placed cell saved, no request of its cores outstanding (R378, R384). -/
def stopReady (s : State) (j : Nat) : Bool :=
  let b := s.job j
  b.state == 7 && b.leftState == 4 && !b.preemptHeld && b.cells.all fun c => !c.valid || match s.core? c.lcn with
    | some k => k.cpu.st == .saving && c.save.control.isSome && k.dma.reqs.isEmpty && !(k.dma.q.any fun i => s.arriving c.lcn i.uid)
    | none => false

/-- Stops that have come to their end free the cores (R378). -/
def settleStops (s : State) : State :=
  (List.range 8).foldl (fun s j =>
    if s.stopReady j then
      let s := (s.job j).cells.zipIdx.foldl (fun s c => if c.1.valid then s.settleCore j c.2 c.1.lcn else s) s
      (s.modJob j fun b => { b with landed := b.landed.filter fun x => x.2.1.1.isNone }).stopped j
    else s) s

/-- Counts a save or a restore of a core's bulk state and control record, in class DEMAND (R381, R383, R427). -/
def countSave (s : State) (a : Nat) (lead store : Bool) : State :=
  (s.countRange a (if lead then 0x210000 else 0x200000) store 0 []).countRange (a + 0x210000) 0x62000 store 0 []

/-- The core's bulk state and control record are in its save area (R381, R383). -/
def saveCore (s : State) (n : Nat) : State :=
  match s.core? n with
  | some c =>
    match c.job with
    | some j =>
      if c.cpu.st == .saving && (((s.job j).cells[c.cell]?).map fun x => x.save.state == 1 && x.save.control.isNone) == some true then
        let a := saveArea j c.cell
        let lead := (((s.job j).cells[c.cell]?).map (·.lead)).getD false
        let s := ({ s with mem := saveBytes s.free lead c.cpu s.mem a }).seeded
        let s := s.modJob j fun b => { b with cells := modAt b.cells c.cell fun x => { x with save := { x.save with control := some (controlOf c.cpu), obs := c.obs } } }
        (((s.countSave a lead true).carryTracks j n c.cell).rearrive j n).settleStops
      else s
    | none => s
  | none => s

/-- Arrival counts of a save area are applied to its semaphores, modulo 65,536 (R203, R383). -/
def applyLog (m : Memory) (a : Nat) (c : Cpu) : Cpu :=
  { c with sems := c.sems.zipIdx.map fun x => x.1 + BitVec.ofNat 16 (m.readLE (a + 0x272040 + 4 * x.2) 4) }

/-- The saved bytes of a cell go to its core (R264, R387). -/
def loadBulk (m : Memory) (a : Nat) (lead : Bool) (c : Cpu) : Cpu :=
  { c with
    scratch := m.slice a 0x200000, leadMem := if lead then m.slice (a + 0x200000) 0x10000 else c.leadMem
    vfile := m.slice (a + 0x210000) 0x20000, accs := m.slice (a + 0x230000) 0x40000 }

/-- Cell `cell` of job `j` is restored onto the core that holds it (R264, R387 steps 2 and 3): its issue state and waits stay with the save until
the start, and CORE_FAULT keeps what it records (R68). -/
def restoreCore (s : State) (j cell n : Nat) : State :=
  let b := s.job j
  match (b.cells[cell]?).bind fun c => c.save.control.map fun u => (c, u) with
  | some (c, u) =>
    (s.countSave (saveArea j cell) c.lead false).modCore n fun k =>
      let v := loadBulk s.mem (saveArea j cell) c.lead (s.loadProgram b { u with leadMem := k.cpu.leadMem })
      let o : CoreObs := { c.save.obs with
        sel := cellSels b cell, queue := k.obs.queue, dropped := k.obs.dropped, run := k.obs.run, runFirst := k.obs.runFirst, runLast := k.obs.runLast }
      { k with
        cpu := { v with
          st := .idle, lead := k.lead, passOverrun := false, flt := k.cpu.flt, cycle := k.cpu.cycle, waits := [], evals := [], moves := [], seqTime := none
          array := { v.array with q := [], wave := none, shadowFree := 0 } }
        obs := o }
  | none => s

/-- An item of the restart list, re-entered (R287, R382). -/
def itemOfEntry (uid : Nat) (e : List Byte) (ms : List Member) : Item :=
  let started := bit (fieldAt e 68 1) 0
  let failed := fieldAt e 72 72
  let counted := fieldAt e 152 72
  let d := fieldAt e 144 8
  { uid, raw := e.take 64, deadline := if bit d 63 then some (bits d 62 0) else none, phase := if started then .woken else .queued
    members := if started then ms.zipIdx.map fun m => ⟨m.1.cell, failed.testBit m.2, false, 0, counted.testBit m.2⟩ else []
    todo := [], total := 0, land := 0, base := if started then 65536 * fieldAt e 64 4 else 0, failAt := none, cut := none, timedOut := false, ownerLost := false }

/-- The restart list of a cell enters its core's queue; items whose deadline has passed complete at once (R287). -/
def reenterItems (s : State) (j cell n : Nat) : State :=
  let a := saveArea j cell
  let k := s.mem.readLE (a + 0x272010) 4
  let ms := (((s.job j).cells[cell]?).map (·.save.members)).getD []
  let u := ((s.core? n).map (·.dma.nextUid)).getD 0
  let items := (List.range k).map fun x => itemOfEntry (u + x) (s.mem.read (a + 0x273000 + 256 * x) 256) (ms.getD x [])
  let s := s.modCore n fun c => { c with dma := { c.dma with q := items, nextUid := u + k } }
  items.foldl (fun s i => if i.deadline.any (· ≤ tickOf s.now) then s.endItem n { beginItem i.members i with phase := i.phase } 6 false true else s) s

/-- What an item had landed in the save area of a cell counts on at its core (R288). -/
def resumeTracks (s : State) (j cell n : Nat) : State :=
  let l := (s.job j).landed.filter fun x => x.1 == cell
  (s.modJob j fun b => { b with landed := b.landed.filter fun x => x.1 != cell }).modCore n fun k =>
    { k with dma := { k.dma with tracked := k.dma.tracked ++ l.map fun x => ⟨x.2.1.1, x.2.1.2.1, x.2.1.2.2, x.2.2⟩ } }

/-- A restored cell starts again at the job's start time (R203, R387 steps 4 and 6, R388); one saved without bulk state starts afresh, with what has
landed in its save area since (R288, R386; log entry 63). -/
def restartCell (s : State) (j cell : Nat) : State :=
  let b := s.job j
  match b.cells[cell]? with
  | some c =>
    let n := c.lcn
    match c.save.control with
    | some v =>
      let st := if c.save.stopped = 0 then CoreSt.idle else if c.save.stopped = 3 then .stopped else .running
      let s := s.seeded.modCore n fun k =>
        let u := applyLog s.mem (saveArea j cell) (loadBulk s.mem (saveArea j cell) c.lead k.cpu)
        restartOn (s.skipLevel (dieOf k.phys)) s.free s.now v { k with withheld := b.snap.stop } { u with st }
      ((s.resumeTracks j cell n).reenterItems j cell n).headWatch n
    | none =>
      let a := saveArea j cell
      (s.modCore n fun k =>
        let u := { k.cpu with scratch := s.mem.slice a 0x200000, leadMem := if c.lead then s.mem.slice (a + 0x200000) 0x10000 else k.cpu.leadMem }
        { k with withheld := b.snap.stop, cpu := applyLog s.mem a u }).resumeTracks j cell n
  | none => s

end State
end Sys2Proof.Machine
end

