-- ==== Sys2Proof/Machine/JobOps.lean ====
section
/-! DEFINITION. What the job commands do as they take effect (R261-R264, R281, R362-R371, R378-R397): loading and placing, starting,
preempting, resuming, unloading, replacing a cell. -/

namespace Sys2Proof.Machine
namespace State

/-- Extent and origin lie in the fabric (R363). -/
def extentBad (s : State) (p : JobLoad) : Bool :=
  let f := s.fab
  p.ex = 0 || p.ey = 0 || p.ez = 0 || f.dx < p.ex || f.dy < p.ey || f.dz < p.ez || f.dx ≤ p.ox || f.dy ≤ p.oy || f.dz ≤ p.oz

/-- A parameter of JOB_LOAD lies outside its range (R363). -/
def loadBad (s : State) (p : JobLoad) : Bool :=
  let l := p.leadCells.take p.leads
  p.gx = 0 || 64 < p.gx || p.gy = 0 || 64 < p.gy || 16 < p.leads || l.any (p.gx * p.gy ≤ ·) || l.eraseDups.length ≠ l.length || s.extentBad p

/-- The grid of job `j` as it can be placed now, with the cores of the jobs in a list counted as free. -/
def gridFits (s : State) (j : Nat) (also : List Nat) : Option (List (Nat × Nat)) :=
  let b := s.job j
  let placed (n : Nat) : Bool := match b.cells[n]? with
    | some c => (match s.core? c.lcn with
      | some k => k.job == some j && k.cell == n && k.cpu.st != .fenced
      | none => false)
    | none => false
  placeGrid s.dieOrder b.gx b.gy b.leads (fun n => !placed n) (s.freeList also)

/-- The jobs that a job with may_preempt preempts, so that it can be placed: lowest priority first, then the latest JOB_LOAD (R370). -/
def preemptFor (s : State) (j : Nat) : List Nat :=
  let b := s.job j
  let can := (List.range 8).filter fun x => let v := s.job x; x != j && (v.state == 3 || v.state == 4 || v.state == 6) && v.priority < b.priority
  let before (x y : Nat) : Bool := (s.job x).priority < (s.job y).priority ||
    ((s.job x).priority == (s.job y).priority && (s.job y).loadSeq < (s.job x).loadSeq)
  let order := (List.range can.length).filterMap fun k => can.find? fun x => (can.filter fun y => before y x).length == k
  if bit b.flags 0 then
    match (List.range (order.length + 1)).find? fun k => (s.gridFits j (order.take k)).isSome with
    | some k => order.take k
    | none => []
  else []

/-- The outstanding JOB_LOAD or JOB_RESUME of job `j` that waits for cores, or that restores them. -/
def waitingJob (s : State) (j : Nat) : Option Out := s.outs.find? fun o => o.h.job == j && o.phase == .placing && match o.cmd with
  | .jobLoad _ => true
  | .jobResume => true
  | _ => false

/-- The cells of a loaded job are placed: the context is LOADED (R261, R262, R365). -/
def placeLoad (s : State) (j u : Nat) (l : List (Nat × Nat)) : State :=
  let b := s.job j
  let s := s.modJob j fun b => { b with cells := (List.range (b.gx * b.gy)).map fun n =>
    ⟨(((l.find? fun x => x.1 == n).map (·.2)).getD 0), b.leads.contains n, true, false, false, 0, false, Save.empty⟩ }
  let s := l.foldl (fun s x => s.placeCore j x.1 x.2 0 (b.leads.contains x.1) false) s
  ((s.writeMap j).setJobState j 3).finish u 0 0 l.length

/-- Every restored cell starts, or waits for the release time (R387 step 6, R388). -/
def startResumed (s : State) (j u : Nat) : State :=
  let b := s.job j
  let late := ((s.out? u).bind (·.h.rt)).any (· < s.now)
  let s := (s.shiftWins j).setJobState j b.leftState
  let s := (List.range b.cells.length).foldl (fun s n => s.restartCell j n) s
  let s := s.modOut u fun o => { o with late := o.late || late }
  s.finish u 0 0 b.cells.length

/-- The cells of a resume are all restored: they start at the later of that moment and the release time (R388). -/
def resumeReady (s : State) (j : Nat) : State :=
  match s.waitingJob j with
  | some o =>
    let b := s.job j
    if b.state = 5 && b.cells.all (·.restored) then
      if (o.h.rt.any fun t => decide (s.now < t)) then s.modOut o.uid fun o => { o with phase := .armed } else s.startResumed j o.uid
    else s
  | none => s

/-- The cells of a resuming job take the cores of a placement (R264, R386, R387 step 1). -/
def placeResume (s : State) (j : Nat) (l : List (Nat × Nat)) : State :=
  let b := s.job j
  let s := l.foldl (fun s x =>
    let bulk := ((b.cells[x.1]?).map fun c => c.save.control.isSome).getD false
    let s := (s.mapCell j x.1 x.2).placeCore j x.1 x.2 0 (b.leads.contains x.1) true
    let s := s.modCore x.2 fun c => { c with withheld := true }
    if bulk then s else s.modJob j fun b => { b with cells := modAt b.cells x.1 fun c => { c with restored := true } }) s
  (s.writeMap j).resumeReady j

/-- Tries to place a waiting JOB_LOAD or JOB_RESUME (R261, R370). -/
def tryPlace (s : State) (j : Nat) : State :=
  match s.waitingJob j, s.gridFits j [] with
  | some o, some l => (match o.cmd with
    | .jobResume => s.placeResume j l
    | _ => s.placeLoad j o.uid l)
  | _, _ => s

/-- A job waits for cores, preempting others when it may (R370). -/
def waitForCores (s : State) (j : Nat) : State :=
  if (s.gridFits j []).isSome then s.tryPlace j
  else (s.preemptFor j).foldl (fun s x => s.beginStop x none 3) s

/-- JOB_LOAD (R261, R363-R365, R368). -/
def jobLoadEffect (s : State) (o : Out) (p : JobLoad) : State :=
  let j := o.h.job
  let held := bit p.flags 1
  if (s.job j).state ≠ (if held then 1 else 0) || 8 ≤ j then s.fail o.uid 2
  else if s.loadBad p then s.fail o.uid 6
  else if s.lcns < p.gx * p.gy || (s.cores.filter (·.lead)).length < p.leads then s.fail o.uid 3
  else
    match s.programBad p.program with
    | some r => s.fail o.uid r
    | none =>
      let b := s.job j
      let keep : Snap := b.snap
      let snap : Snap := { keep with epoch := 0, cowLate := 0, bounded := 0, marks := 0, lastBuddy := none }
      let n : Job := { Job.empty with
        ctxGen := b.ctxGen, mapGen := b.mapGen, priority := p.priority % 4, ring := o.h.ring, from_ := o.from_, flags := p.flags, jobTag := p.jobTag
        gx := p.gx, gy := p.gy, seed := p.seed, argument := p.argument, program := p.program, leads := p.leadCells.take p.leads
        ox := p.ox, oy := p.oy, oz := p.oz, ex := p.ex, ey := p.ey, ez := p.ez, loadSeq := s.loads, loadedFrom := b.state, caps := b.caps, snap }
      let s := { (s.modJob j fun _ => n) with loads := s.loads + 1 }
      let s := (s.setJobState j 2).modOut o.uid fun o => { o with phase := .placing }
      s.waitForCores j

/-- JOB_START (R365, R368, R425). -/
def jobStartEffect (s : State) (o : Out) : State :=
  let j := o.h.job
  let b := s.job j
  if b.state ≠ 3 && b.state ≠ 6 then s.fail o.uid 2
  else
    let s := s.modJob j fun b => { b with startUid := some o.uid, cells := b.cells.map fun c => { c with ended := false } }
    let s := b.cells.zipIdx.foldl (fun s c =>
      if c.1.valid then
        s.modCore c.1.lcn fun k =>
          let u := if b.state = 6 then clearRegs b c.2 c.1.lead c.1.replaced k.cpu else k.cpu
          resetCounters 0xFFFF { k with withheld := b.snap.stop, cpu := { u with st := .running } }
      else s) s
    s.setJobState j 4

/-- JOB_PREEMPT (R378). -/
def jobPreemptEffect (s : State) (o : Out) : State :=
  let st := (s.job o.h.job).state
  if st = 3 || st = 4 || st = 6 then s.beginStop o.h.job (some o.uid) 0 else s.fail o.uid 2

/-- JOB_RESUME (R387-R389). -/
def jobResumeEffect (s : State) (o : Out) : State :=
  let j := o.h.job
  let b := s.job j
  if b.state ≠ 5 then s.fail o.uid 2
  else if (s.outs.any fun x => x.uid != o.uid && x.h.job == j && x.cmd == .jobResume && (x.phase == .placing || x.phase == .armed)) then s.fail o.uid 4
  else if b.cells.any fun c => c.save.state ≠ 2 then s.fail o.uid 0
  else (s.modOut o.uid fun o => { o with phase := .placing }).waitForCores j

/-- The cores that a resume under way holds are freed (R264, R387). -/
def dropResume (s : State) (j : Nat) : State :=
  (s.freeCores j).modJob j fun b => { b with cells := b.cells.map fun c => { c with restored := false } }

/-- JOB_UNLOAD leaves the context HELD (R368). -/
def jobUnloadEffect (s : State) (o : Out) : State :=
  let j := o.h.job
  let st := (s.job j).state
  if st ≠ 3 && st ≠ 5 && st ≠ 6 then s.fail o.uid 2
  else
    let resumes := s.outs.filter fun x => x.h.job == j && x.cmd == .jobResume && (x.phase == .placing || x.phase == .armed)
    let s := resumes.foldl (fun s x => s.fail x.uid 2) s
    let s := (s.job j).wins.foldl (fun s w => (s.endRun j w.num)) s
    let s := s.freeCores j
    let s := s.modJob j fun b => { b with groups := [], groupsNext := [], wins := [], cells := [], landed := [], startUid := b.startUid }
    ((s.setJobState j 1).writeMap j).finish o.uid 0 0 0

/-- The core that a lost cell can be placed on: a lead core for a lead cell (R261, R396). -/
def coreForCell (s : State) (lead : Bool) : Option Nat := (takeFor s.dieOrder none lead (s.freeList [])).map (·.lcn)

/-- A lost cell is placed on core `n` (R396). -/
def replaceCell (s : State) (j cell n : Nat) : State :=
  match (s.job j).cells[cell]? with
  | some c =>
    let s := s.placeCore j cell n (c.replaced + 1) c.lead true
    let s := s.modJob j fun b => { b with cells := modAt b.cells cell fun c => { c with lcn := n, valid := true, lost := false, ended := false, replaced := c.replaced + 1, save := Save.empty } }
    let run := (s.job j).state == 4
    let s := if run then s.modCore n fun k => { k with cpu := { k.cpu with st := .running }, withheld := (s.job j).snap.stop } else s
    let phys := ((s.core? n).map (·.phys)).getD 0
    (s.writeMap j).jobEvent j 4 0 cell 0 phys
  | none => s

/-- A CELL_REPLACE that waits takes a core when one is free (R397). -/
def tryReplace (s : State) (o : Out) (cell : Nat) : State :=
  match (s.job o.h.job).cells[cell]? with
  | some c =>
    if !c.lost then s.fail o.uid 2
    else
      match s.coreForCell c.lead with
      | some n => (s.replaceCell o.h.job cell n).finish o.uid 0 0 n
      | none => s.modOut o.uid fun o => { o with phase := .placing }
  | none => s.fail o.uid 6

/-- CELL_REPLACE (R397). -/
def cellReplaceEffect (s : State) (o : Out) (cell : Nat) : State :=
  if (s.job o.h.job).state ≠ 4 then s.fail o.uid 2 else s.tryReplace o cell

/-- Freed cores are given out: waiting jobs by priority, then by JOB_LOAD, then waiting cell replacements (R261, R370, R397; log entry 28). -/
def placeNext (s : State) : State :=
  let waiting := (List.range 8).filter fun j => (s.waitingJob j).isSome && (s.gridFits j []).isSome && !((s.job j).state == 5 && (s.job j).cells.all (·.restored))
  let before (x y : Nat) : Bool := (s.job y).priority < (s.job x).priority ||
    ((s.job x).priority == (s.job y).priority && (s.job x).loadSeq < (s.job y).loadSeq)
  match waiting.find? fun x => !(waiting.any fun y => before y x) with
  | some j => s.tryPlace j
  | none =>
    match s.outs.findSome? fun o => match o.cmd with
      | .cellReplace c => if o.phase == .placing then some (o, c) else none
      | _ => none with
    | some (o, c) => s.tryReplace o c
    | none => s

/-- A cell's restore completes (R264, R388). -/
def restoreDone (s : State) (j cell : Nat) : State :=
  match (s.job j).cells[cell]? with
  | some c =>
    let mine := ((s.core? c.lcn).map fun k => k.job == some j && k.cell == cell && k.withheld).getD false
    if (s.job j).state = 5 && !c.restored && mine && c.save.state = 2 && (s.waitingJob j).isSome then
      ((s.restoreCore j cell c.lcn).modJob j fun b => { b with cells := modAt b.cells cell fun c => { c with restored := true } }).resumeReady j
    else s
  | none => s

/-- MCAST_SET; the set is in force from the next tick boundary (R281, R282). -/
def mcastSetEffect (s : State) (o : Out) (g count a : Nat) : State :=
  if !s.jobLive o.h.job then s.fail o.uid 2
  else if 256 ≤ g || count = 0 || 576 < count then s.fail o.uid 6
  else
    match s.fwRead a (2 * count) with
    | none => s.fail o.uid 0
    | some bs =>
      let l := (List.range count).map fun i => fieldAt bs (2 * i) 2
      (s.modJob o.h.job fun b => { b with groupsNext := b.groupsNext ++ [(g, l)] }).finish o.uid 0 0 0

/-- Multicast groups set take effect (R282). -/
def tickGroups (s : State) : State :=
  { s with jobs := s.jobs.map fun b => { b with
      groups := b.groupsNext.foldl (fun l g => (l.filter fun x => x.1 != g.1) ++ [g]) b.groups
      groupsNext := [] } }

/-- The job context record as JOB_QUERY returns it (R362, R369). -/
def jobQueryEffect (s : State) (o : Out) (buf : Nat) : State :=
  let j := o.h.job
  s.answer o buf (s.mem.read (0x0C0000000000 + 0x1000 * j) 64) (s.job j).state

end State
end Sys2Proof.Machine
end

