-- ==== Sys2Proof/Machine/CollOps.lean ====
section
/-! DEFINITION. Collectives (R313-R322): the descriptor, the reductions, what peers send, results, completion records and failures. -/

namespace Sys2Proof.Machine

namespace Coll

/-- Fields of the descriptor (R315). -/
def op (c : Coll) : Nat := fieldAt c.raw 0 1
def axesField (c : Coll) : Nat := fieldAt c.raw 1 1
def redop (c : Coll) : Nat := fieldAt c.raw 2 1
def inFmt (c : Coll) : Nat := fieldAt c.raw 3 1
def wireFmt (c : Coll) : Nat := fieldAt c.raw 4 1
def outFmt (c : Coll) : Nat := fieldAt c.raw 5 1
def engine (c : Coll) : Nat := fieldAt c.raw 6 1
def notify (c : Coll) : Bool := bit (fieldAt c.raw 7 1) 0
def src (c : Coll) : Nat := fieldAt c.raw 8 8
def dst (c : Coll) : Nat := fieldAt c.raw 16 8
def count (c : Coll) : Nat := fieldAt c.raw 24 8
def notifyCell (c : Coll) : Nat := fieldAt c.raw 32 2
def notifySem (c : Coll) : Nat := fieldAt c.raw 34 1
def notifyOff (c : Coll) : Nat := fieldAt c.raw 36 4
def contrib (c : Coll) : Nat := fieldAt c.raw 40 8
def stamp (c : Coll) : Nat := fieldAt c.raw 48 4
def contributors (c : Coll) : Nat := fieldAt c.raw 52 2
/-- GLOBAL_NORM (R318). -/
def norm (c : Coll) : Bool := decide (c.op = 4)

/-- The descriptor is refused at the start (R315, R316). -/
def invalid (c : Coll) : Bool :=
  2 ≤ c.inFmt || 2 ≤ c.wireFmt || 2 ≤ c.outFmt || 5 ≤ c.op || (c.op < 4 && c.axesField % 8 = 0) || (4 ≤ c.engine && c.engine ≠ 0xFF) ||
    (c.norm && (c.contributors = 0 || 1024 < c.contributors)) ||
    ((c.op = 2 || c.op = 3) && !(c.inFmt == c.wireFmt && c.wireFmt == c.outFmt)) || (c.op < 2 && 2 ≤ c.redop)

/-- The port dies of its engines: 0 W, 1 E (R313). -/
def dies (c : Coll) : List Nat := (c.engines.map (· / 2)).eraseDups

/-- It holds its engines (R313, R323). -/
def busy (c : Coll) : Bool := c.phase == .running || c.phase == .notifying

end Coll

/-- Bytes of an element of format code 0 or 1 (R315). -/
def elemBytes (f : Nat) : Nat := if f = 0 then 4 else 2

/-- The elements of a buffer of a format, as exact values. -/
def elems (f n : Nat) (bs : List Byte) : List Value := (List.range n).map fun i => (fmtOf f).decode (fieldAt bs (elemBytes f * i) (elemBytes f))

/-- An exact value in a format, to nearest even, an overflow becoming infinite (R317). -/
def roundTo (f : Nat) (x : Value) : Value := (fmtOf f).decode ((fmtOf f).rn x)

/-- A step of a reduction: both operands are exact in FP32; SUM rounds once (R317). -/
def redStep (max : Bool) (a b : Value) : Value := if max then a.max b else roundTo 0 (a.add b)

/-- The positions after `q` in ascending or descending order round a ring of `P`, ending at `q` (R317). -/
def ringOrder (P q : Nat) (up : Bool) : List Nat := (List.range P).map fun i => if up then (q + 1 + i) % P else (q + P - 1 - i % P + P) % P

/-- A chain of steps over the operands `x` in an order: partial results rounded to the wire format, the last step's to `last` (R317). -/
def chain (max : Bool) (wire : Nat) (last : Value → Value) (x : Nat → Value) : List Nat → Value
  | [] => .zero
  | k :: ks =>
    let rec go (acc : Value) : List Nat → Value
      | [] => last acc
      | [j] => last (redStep max (roundTo wire acc) (x j))
      | j :: js => go (redStep max (roundTo wire acc) (x j)) js
    go (x k) ks

/-- The reduction of one element whose owner is position `q` (R317; log entry 32). -/
def reduceElem (max : Bool) (wire out P q : Nat) (ring first : Bool) (x : Nat → Value) : Value :=
  if ring then chain max wire (roundTo out) x (ringOrder P q first)
  else
    let last (v : Value) : Value := if q + 1 = P then roundTo out v else roundTo out (roundTo wire v)
    chain max wire last x (List.range P)

/-- Owner of element `e` of an ALL_REDUCE of `n` elements and whether it lies in its shard's first half; the shards of a count that `P` does not
divide are not given (R317; log entry 32). -/
def ownerOf (P n e : Nat) : Nat × Bool :=
  if n % P = 0 then
    let L := n / P
    (e / L, e % L < ceilDiv L 2)
  else (Config.free 0 72 (e + 2 ^ 64 * (n + 2 ^ 64 * P)) % P, Config.free 0 73 (e + 2 ^ 64 * (n + 2 ^ 64 * P)) % 2 == 0)

/-- Elements as bytes of a format. -/
def elemsOut (f : Nat) (xs : List Value) : List Byte := xs.flatMap fun x => leBytes (elemBytes f) ((fmtOf f).rn x)

/-- What an operation of R316 leaves at position `q` from the inputs of all `P` positions; `n` elements a device on this axis, in format `inF`. -/
def axisResult (c : Coll) (inF P q n : Nat) (ring : Bool) (input : Nat → List Byte) : List Byte :=
  let w := elemBytes inF
  let vals (m : Nat) : List (List Value) := (List.range P).map fun k => elems inF m (input k)
  let pick (v : List (List Value)) (e k : Nat) : Value := (v.getD k []).getD e .zero
  if c.op = 0 then
    let v := vals n
    elemsOut c.outFmt ((List.range n).map fun e =>
      let o := ownerOf P n e
      reduceElem (c.redop == 1) c.wireFmt c.outFmt P o.1 ring o.2 (pick v e))
  else if c.op = 1 then
    let v := vals (P * n)
    elemsOut c.outFmt ((List.range n).map fun e => reduceElem (c.redop == 1) c.wireFmt c.outFmt P q ring (e < ceilDiv n 2) (pick v (q * n + e)))
  else if c.op = 2 then (List.range P).flatMap fun k => bytesAt (input k) 0 (n * w)
  else (List.range P).flatMap fun k => bytesAt (input k) (q * n * w) (n * w)

/-- A device's value in a GLOBAL_NORM: sum, OVF and NaN flags, slots counted (R318; log entry 32). -/
def normBytes (sum : W32) (ovf nan : Bool) (count : Nat) : List Byte :=
  leBytes 4 sum.toNat ++ leBytes 4 (b2n ovf + 2 * b2n nan) ++ leBytes 4 count

/-- The value of this device's slots (R318, R492). -/
def normLocal (slots : List (List Byte)) : List Byte :=
  let v := slots.map fun b => BitVec.ofNat 32 (fieldAt b 0 4)
  normBytes (tree f32add 0 v) (slots.any fun b => bit (fieldAt b 4 1) 0) (v.any fun x => (ofF32 x).isNan) slots.length

/-- The combination of the values of an axis, in ascending position (R318). -/
def normCombine (vs : List (List Byte)) : List Byte :=
  let sum := match vs.map fun b => BitVec.ofNat 32 (fieldAt b 0 4) with
    | [] => 0
    | x :: xs => xs.foldl f32add x
  normBytes sum (vs.any fun b => bit (fieldAt b 4 4) 0) (vs.any fun b => bit (fieldAt b 4 4) 1) (vs.foldl (fun n b => n + fieldAt b 8 4) 0)

/-- The norm of a combined value (R166, R318). -/
def normOf (v : List Byte) : Nat :=
  let sum := fp32.decode (fieldAt v 0 4)
  if bit (fieldAt v 4 4) 1 then fp32.nanCode
  else if bit (fieldAt v 4 4) 0 || sum == .inf false then fp32.maxCode + 1
  else fp32.sqrt sum

/-- The result record of R319. -/
def normRecord (norm : Nat) (ovf timeout : Bool) (stamp count : Nat) : List Byte :=
  leBytes 4 norm ++ leBytes 4 (b2n ovf + 2 * b2n timeout) ++ leBytes 4 stamp ++ leBytes 4 count

/-- An axis of a list has `k` devices of the extent (R314). -/
def Job.extent (b : Job) (a : Nat) : Nat := if a = 0 then b.ex else if a = 1 then b.ey else b.ez
/-- The extent's origin on an axis (R363). -/
def Job.origin (b : Job) (a : Nat) : Nat := if a = 0 then b.ox else if a = 1 then b.oy else b.oz

namespace State

/-- The collective of a command on a ring with a tag. -/
def coll? (s : State) (ring tag : Nat) : Option Coll := s.colls.find? fun c => c.ring == ring && c.tag == tag

/-- Replaces a collective by `f` of it. -/
def modColl (s : State) (u : Nat) (f : Coll → Coll) : State := { s with colls := s.colls.map fun c => if c.uid == u then f c else c }

/-- Position of a coordinate on an axis of job `j` (R314). -/
def position (s : State) (j a : Nat) (p : Nat × Nat × Nat) : Nat :=
  let d := max 1 (s.dimOn a)
  (coordOn p a + d - (s.job j).origin a % d) % d

/-- The device at position `q` of an axis, on this device's line. -/
def deviceAt (s : State) (j a q : Nat) : Nat × Nat × Nat :=
  let x := ((s.job j).origin a + q) % max 1 (s.dimOn a)
  let h := s.here
  if a = 0 then (x, h.2.1, h.2.2) else if a = 1 then (h.1, x, h.2.2) else (h.1, h.2.1, x)

/-- An axis of a job is a ring: it wraps, and the extent covers it (R317; log entry 32). -/
def ringAxis (s : State) (j a : Nat) : Bool := s.wrapOn a && (s.job j).extent a == s.dimOn a

/-- The axes that a collective runs, in order (R315). -/
def collAxes (c : Coll) : List Nat := if c.norm then [0, 1, 2] else [0, 1, 2].filter fun a => c.axesField.testBit a

/-- The other devices of an axis. -/
def peersOn (s : State) (j a : Nat) : List (Nat × Nat × Nat) :=
  let q := s.position j a s.here
  ((List.range ((s.job j).extent a)).filter (· != q)).map fun k => s.deviceAt j a k

/-- Every other device that takes part with this one (R314). -/
def collPeers (s : State) (c : Coll) : List (Nat × Nat × Nat) := (collAxes c).flatMap fun a => s.peersOn c.job a

/-- The aborts of a collective: both ways on each axis (R322). -/
def sendAborts (s : State) (c : Coll) : State :=
  (collAxes c).foldl (fun s a =>
    let P := (s.job c.job).extent a
    let q := s.position c.job a s.here
    let ends := ([(q + 1) % max 1 P, (q + P - 1) % max 1 P].eraseDups).filter fun k => k != q && (s.ringAxis c.job a || (k + 1 == q || k == q + 1))
    ends.foldl (fun s k => s.sendPacket c.dies.head? (s.deviceAt c.job a k) pkCollCtrl 0 0x3FF 0 (s.job c.job).jobTag 0 (leBytes 4 c.tag ++ leBytes 1 c.ring)) s) s

/-- The completion record of R320. -/
def collNotice (c : Coll) (st : Nat) : List Byte := leBytes 1 st ++ leBytes 1 c.op ++ [0, 0] ++ leBytes 4 c.tag ++ leBytes 8 (if c.norm then c.result else 0)

/-- A record of a collective on its way to a cell's arrival path. -/
def isNotice (u : Nat) (r : ArrReq) : Bool := r.issuer.isNone && r.member == 1 && r.item == u

/-- The record of a collective is still on its way. -/
def noticePending (s : State) (u : Nat) : Bool := s.cores.any fun c => c.dma.bufs.any (isNotice u) || c.dma.waiting.any (isNotice u)

/-- The notify cell can take the record (R320). -/
def noticeTaken (s : State) (c : Coll) : Bool :=
  match s.cellTarget c.job c.notifyCell with
  | .gone => false
  | _ => backedOff ((((s.job c.job).cells[c.notifyCell]?).map (·.lead)).getD false) c.notifyOff 16

/-- The final reply of a collective (R320, R357): its engines are free again. -/
def replyColl (s : State) (c : Coll) : State :=
  ({ s with colls := s.colls.filter fun x => x.uid != c.uid }).finishWith c.uid c.status c.reason 0 c.result (c.notify && c.notifyFailed) []

/-- The trace records of a collective's start (0) or end (1), one from each of its engines (R431; log entry 36). -/
def collTrace (s : State) (c : Coll) (st done : Nat) : State :=
  c.engines.foldl (fun s e => s.trace (if e < 2 then 4 else 5) (traceRec s.now 9 s.time.valid 0x3FF 1
    [(16, 1, c.op), (17, 1, st), (18, 1, done), (19, 1, c.job), (20, 4, c.tag), (24, 8, c.dst)])) s

/-- Counts a completion on its engines (R323, R427). -/
def countColl (s : State) (c : Coll) (st : Nat) : State :=
  let s := c.engines.foldl (fun s e => s.devCount 0xF e 1) s
  { s with engines := s.engines.zipIdx.map fun e =>
      if c.engines.contains e.2 then
        { e.1 with count := bump64 e.1.count 1, failLast := if st = 0 then e.1.failLast else ⟨st, c.op, c.job, c.tag, true⟩ }
      else e.1 }

/-- A collective ends with a status: the completion record goes to its cell first (R320). -/
def endColl (s : State) (c : Coll) (st rs result : Nat) : State :=
  let s := (s.countColl c st).collTrace c st 1
  let c := { c with status := st, reason := rs, result, phase := .notifying, notifyFailed := false }
  if c.notify then
    if s.noticeTaken c then
      let late := ((s.out? c.uid).map (·.late)).getD false
      let sem := if c.notifySem < 48 then some c.notifySem else none
      let r : ArrReq := ⟨none, 0, c.uid, 1, c.notifyCell, 0, c.notifyOff, collNotice c (if late && st = 0 then 0x0B else st), 16, sem, none, false, none⟩
      let s := (s.modColl c.uid fun _ => c).arrive c.job r c.notifyOff
      if s.noticePending c.uid then s else s.replyColl c
    else s.replyColl { c with notifyFailed := true }
  else s.replyColl c

/-- Records that have landed let their replies be written (R320). -/
def settleColls (s : State) : State :=
  s.colls.foldl (fun s c => if c.phase == .notifying && !s.noticePending c.uid then s.replyColl c else s) s

/-- Bytes of the output on this device (R316). -/
def outBytes (s : State) (c : Coll) : Nat :=
  if c.norm then 16
  else
    let grow := (collAxes c).foldl (fun n a => n * (s.job c.job).extent a) 1
    c.count * elemBytes c.outFmt * (if c.op = 0 then 1 else if c.op = 1 then 1 else if c.op = 2 then grow else ((collAxes c).map fun a => (s.job c.job).extent a).getLastD 1)

/-- Slots counted so far, over this device and the devices whose values have arrived, on whichever axis (R319). -/
def slotsCounted (c : Coll) : Nat :=
  c.got.foldl (fun n g => n + fieldAt g.2.2 8 4) (if c.work.isEmpty then c.slots.length else fieldAt c.work 8 4)

/-- A collective that has started fails: GLOBAL_NORM writes its record, other operations leave the output unpredictable (R319, R322). -/
def failColl (s : State) (c : Coll) (st rs : Nat) : State :=
  if c.norm then
    let r := normRecord fp32.nanCode true (st == 6) c.stamp (slotsCounted c)
    (s.tryWrite c.dst r).endColl c st rs (leNat (r.take 8))
  else if c.phase == .running then
    let n := s.outBytes c
    let junk := (List.range n).map fun i => BitVec.ofNat 8 (Config.free s.free 74 i)
    (s.seeded.writeOut (n / 65536 + 2) c.dst junk).1.endColl c st rs 0
  else s.endColl c st rs 0

/-- A failure that peers must hear of (R322). -/
def abortColl (s : State) (c : Coll) (st rs : Nat) : State := (s.sendAborts c).failColl c st rs

/-- The input of this device to an axis goes to the axis's other devices, in packets of 256 bytes, each from an engine of one of the collective's dies
(R298, R313, R318; log entry 65). -/
def sendWork (s : State) (c : Coll) (a : Nat) (d : List Byte) : State :=
  (s.peersOn c.job a).foldl (fun s p =>
    (List.range (ceilDiv d.length 256)).foldl (fun s k =>
      s.sendPacket c.dies[Config.free 0 84 k % max 1 c.dies.length]? p pkCollData 0 0x3FF 0 (s.job c.job).jobTag k ((d.drop (256 * k)).take 256)) s) s

/-- Format of the input to the current axis: the descriptor's for the first, the previous axis's result for the others (log entry 32). -/
def axisFmt (c : Coll) : Nat := if c.axes.length = (collAxes c).length then c.inFmt else c.outFmt

/-- Elements a device on the current axis (R316). -/
def axisCount (s : State) (c : Coll) : Nat :=
  let all := collAxes c
  let left := c.axes.drop 1
  let done := all.take (all.length - c.axes.length)
  let P (l : List Nat) : Nat := l.foldl (fun n a => n * (s.job c.job).extent a) 1
  if c.op = 0 then c.count
  else if c.op = 1 then c.count * P left
  else if c.op = 2 then c.count * P done
  else c.count

/-- The current axis's inputs are all here: its result is the input to the next axis (R316-R318). -/
def stepAxis (s : State) (c : Coll) : Option Coll :=
  match c.axes with
  | [] => none
  | a :: rest =>
    let P := (s.job c.job).extent a
    let q := s.position c.job a s.here
    let input (k : Nat) : Option (List Byte) := if k = q then some c.work else (c.got.find? fun g => g.1 == a && g.2.1 == k).map (·.2.2)
    if c.work.isEmpty || !((List.range P).all fun k => (input k).isSome) then none
    else
      let vs := (List.range P).map fun k => (input k).getD []
      let work := if c.norm then normCombine vs
        else axisResult c (axisFmt c) P q (s.axisCount c) (s.ringAxis c.job a) fun k => vs.getD k []
      some { c with work, axes := rest, got := c.got.filter fun g => g.1 != a }

/-- Runs the axes that can run; each new input is sent to the devices of its axis. -/
def runAxes (s : State) (u : Nat) : Nat → State
  | 0 => s
  | f + 1 =>
    match s.colls.find? fun c => c.uid == u with
    | some c =>
      if c.phase == .running then
        match s.stepAxis c with
        | some d =>
          let s := s.modColl u fun _ => d
          let s := match d.axes with
            | a :: _ => s.sendWork d a d.work
            | [] => s
          runAxes s u f
        | none => s
      else s
    | none => s

/-- The engine reads the slots whose stamp has not matched; `none` when one cannot be read (R318, R322). -/
def readSlots (s : State) (c : Coll) : Option (List (Nat × List Byte)) :=
  (List.range c.contributors).foldl (fun acc i =>
    match acc with
    | some l =>
      (match c.slots.find? fun x => x.1 == i with
       | some x => some (l ++ [x])
       | none => (s.fwRead (c.contrib + 16 * i) 16).map fun b => if fieldAt b 8 4 = c.stamp then l ++ [(i, b)] else l)
    | none => none) (some [])

/-- GLOBAL_NORM reads its slots; once every stamp matches, the device's value is formed and sent (R318). -/
def pollNorm (s : State) (u : Nat) : State :=
  match s.colls.find? fun c => c.uid == u with
  | some c =>
    if c.norm && c.phase == .running && c.work.isEmpty then
      match s.readSlots c with
      | none => s.abortColl c 3 0
      | some l =>
        let s := s.countRange c.contrib (16 * (c.contributors - c.slots.length)) false 3 c.dies
        let whole := decide (l.length = c.contributors)
        let work := if whole then normLocal (l.map (·.2)) else []
        let s := s.modColl u fun c => { c with slots := l, work }
        if whole then (s.sendWork c 0 work).runAxes u 4 else s
    else s
  | none => s

/-- The collective runs on its engines: its input is read (R313, R316, R321, R322). -/
def beginColl (s : State) (c : Coll) : State :=
  let s := (s.modColl c.uid fun c => { c with phase := .running, axes := collAxes c }).collTrace c 0 0
  let c := { c with phase := CollPhase.running, axes := collAxes c }
  if c.norm then s.pollNorm c.uid
  else
    let P := (collAxes c).foldl (fun n a => n * (s.job c.job).extent a) 1
    let first := (s.job c.job).extent ((collAxes c).headD 0)
    let n := c.count * elemBytes c.inFmt * (if c.op = 1 then P else if c.op = 3 then first else 1)
    match s.fwRead c.src n with
    | none => s.abortColl c 3 0
    | some d =>
      let s := (s.countRange c.src n false 3 c.dies).modColl c.uid fun c => { c with work := d, axes := if n = 0 then [] else c.axes }
      (s.sendWork c ((collAxes c).headD 0) d).runAxes c.uid 4

/-- Each engine of a collective runs fewer than 8 (R313). -/
def canBegin (s : State) (c : Coll) : Bool := c.engines.all fun e => (s.colls.filter fun x => x.busy && x.engines.contains e).length < 8

/-- Released collectives start, oldest first, while each of their engines runs fewer than 8 (R313). -/
def promoteColls (s : State) : State :=
  (s.colls.filter fun c => c.phase == .released).foldl (fun s c => if s.canBegin c then s.beginColl c else s) s

/-- Engines that a descriptor asks for, or the status and reason of its refusal (R313, R315, R392). -/
def chooseEngines (s : State) (c : Coll) : Except (Nat × Nat) (List Nat) :=
  let has (e : Nat) : Bool := ((s.engines[e]?).map (·.present)).getD false
  let works (e : Nat) : Bool := ((s.engines[e]?).map fun g => g.present && !g.failed).getD false
  if c.engine < 4 && !has c.engine then .error (4, 0)
  else if c.invalid then .error (3, 6)
  else if c.engine < 4 then (if works c.engine then .ok [c.engine] else .error (3, 3))
  else if [0, 2].any fun e => (has e || has (e + 1)) && !(works e || works (e + 1)) then .error (3, 3)
  else .ok ((List.range 4).filter works)

/-- A collective starts at its release (R314, R315); inside a snapshot stop of its job it waits for the stop's end (R407). -/
def startColl (s : State) (u : Nat) : State :=
  match s.colls.find? fun c => c.uid == u with
  | some c =>
    if (s.job c.job).snap.stop then s.modColl u fun c => { c with phase := .deferred }
    else
      if c.aborted then s.failColl { c with slots := [] } 3 0 else
      match s.chooseEngines c with
      | .error (st, rs) =>
        if st = 4 then s.replyColl { c with status := 4, reason := 0, result := 0, notifyFailed := false }
        else s.failColl { c with slots := [] } st rs
      | .ok es => (s.modColl u fun c => { c with engines := es, phase := .released }).promoteColls
  | none => s

/-- Collectives whose release fell inside a snapshot stop of job `j` start at its end, late (R407). -/
def startDeferred (s : State) (j : Nat) : State :=
  (s.colls.filter fun c => c.job == j && c.phase == .deferred).foldl (fun s c => (s.modOut c.uid fun o => { o with late := true }).startColl c.uid) s

/-- A peer's input arrives (R314, R317). -/
def collDataArrives (s : State) (ring tag a pos : Nat) (d : List Byte) : State :=
  match s.coll? ring tag with
  | some c =>
    let named := (collAxes c).contains a
    if c.phase != .notifying && named && pos < (s.job c.job).extent a && pos ≠ s.position c.job a s.here && !(c.got.any fun g => g.1 == a && g.2.1 == pos) then
      let s := s.modColl c.uid fun c => { c with got := c.got ++ [(a, pos, d)] }
      s.runAxes c.uid 4
    else s
  | none => s

/-- An abort arrives: the collective fails, or fails at its start when its release is still to come (R322). -/
def collAborted (s : State) (ring tag : Nat) : State :=
  match s.coll? ring tag with
  | some c =>
    if c.phase == .notifying then s
    else if c.phase == .accepted then s.modColl c.uid fun c => { c with aborted := true }
    else (s.failColl c 3 0).promoteColls
  | none => s

/-- A collective whose axes have all run writes its output and completes (R316, R319, R320). -/
def completeColl (s : State) (ring tag : Nat) : State :=
  match s.coll? ring tag with
  | some c =>
    if c.phase == .running && c.axes.isEmpty && !(c.norm && c.work.isEmpty) then
      let out := if c.norm then normRecord (normOf c.work) (bit (fieldAt c.work 4 4) 0) false c.stamp (fieldAt c.work 8 4) else c.work
      if out.isEmpty then (s.endColl c 0 0 0).promoteColls
      else
        match s.fwWrite c.dst out with
        | none => (s.abortColl c 3 0).promoteColls
        | some s => (((s.countRange c.dst out.length true 3 c.dies).spoilRings c.dst out.length).endColl c 0 0 (if c.norm then leNat (out.take 8) else 0)).promoteColls
    else s
  | none => s

/-- COLL_RUN is accepted: the descriptor is copied (R315); one that cannot be read fails the command (R361). -/
def acceptColl (s : State) (o : Out) (a : Nat) : Option State :=
  (s.fwRead a 64).map fun d =>
    { s with colls := s.colls ++ [⟨o.uid, o.h.ring, o.h.tag, o.h.job, d, [], .accepted, [], [], [], [], 0, 0, 0, false, false⟩] }

/-- A destination is unreachable: requests and collectives that name it fail (R285, R311, R322). -/
def unreachable (s : State) (p : Nat × Nat × Nat) (before : Nat) : State :=
  let hit := s.cores.zipIdx.flatMap fun c => (c.1.dma.reqs.filter fun r => r.phase == .ack && r.sentAt ≤ before && match itemOfReq c.1 r with
    | some i => (match s.dstDest i r.piece.dst with
      | .remote d _ => d == p
      | _ => false)
    | none => false).map fun r => (c.2, r.slot)
  let s := hit.foldl (fun s x => s.failReq x.1 x.2) s
  (s.colls.filter fun c => c.phase == .running && (s.collPeers c).contains p).foldl (fun s c => s.abortColl c 3 0) s

end State
end Sys2Proof.Machine
end

