-- ==== Sys2Proof/Machine/SnapOps.lean ====
section
/-! DEFINITION. Ember snapshots (R403-R419): the stop, the drain, the state images, the epoch advance, the background copy, the buddy store; and
restores (R420). -/

namespace Sys2Proof.Machine

/-- The JOB_LOAD parameters of a job, as R363 lays them out (R416). -/
def loadBytes (b : Job) : List Byte :=
  let head := record 40 [(0, 8, b.program), (8, 8, b.seed), (16, 8, b.argument), (24, 1, b.gx), (25, 1, b.gy), (26, 1, b.priority), (27, 1, b.flags),
    (28, 2, b.jobTag), (30, 1, b.leads.length), (32, 1, b.ox), (33, 1, b.oy), (34, 1, b.oz), (35, 1, b.ex), (36, 1, b.ey), (37, 1, b.ez)]
  head ++ bytesAt (b.leads.flatMap (leBytes 2)) 0 32

/-- A core on which everything that issued has landed (R406): a pass queue holds at most what waits behind an MWAIT. -/
def quietCpu (c0 : Cpu) : Bool :=
  let c := c0.endCycle
  c.pend.isEmpty && c.moves.isEmpty && c.sups.isEmpty && c.array.run.isEmpty && !(c.waits.any fun w => w.wakeAt.isSome && w.eng != engFsd) &&
    (match (leadSwaps c.array.q).2 with
     | .entry _ :: _ => false
     | _ => true)

/-- An entry of a group table (R416). -/
def groupEntry (g : Nat × List Nat) : List Byte :=
  let e := leBytes 2 g.1 ++ leBytes 2 g.2.length ++ g.2.flatMap (leBytes 2)
  e ++ List.replicate ((8 - e.length % 8) % 8) 0

/-- Reads the entries of a group table. -/
def groupsOf : Nat → List Byte → List (Nat × List Nat)
  | 0, _ => []
  | n + 1, bs =>
    let k := fieldAt bs 2 2
    let len := (4 + 2 * k + 7) / 8 * 8
    (fieldAt bs 0 2, (List.range k).map fun i => fieldAt bs (4 + 2 * i) 2) :: groupsOf n (bs.drop len)

/-- Bytes of the group table of `n` entries. -/
def groupsLen : Nat → List Byte → Nat
  | 0, _ => 0
  | n + 1, bs => let len := (4 + 2 * fieldAt bs 2 2 + 7) / 8 * 8; len + groupsLen n (bs.drop len)

namespace State

/-- The stop bound (R405). -/
def stopBoundNs (s : State) : Nat := if s.fuses.tk9620 then 20000000 else 25000000

/-- A controller index and a namespace are usable: what size of LBA a namespace has is fixed outside the device (R414; log entry 67). -/
def nvmeUsable (s : State) (ctrl ns : Nat) : Bool := decide (ctrl < 4) && s.pcie.nvme.testBit ctrl && Config.free 0 88 (ctrl + 4 * ns) % 2 == 0

/-- A block of job `j`, or a state frame, still holds an image (R243, R404). -/
def imagesLeft (s : State) (j : Nat) : Bool :=
  s.blks.any (fun k => (k.image.map (·.job)) == some j) || s.kept.any (fun x => x.2.job == j) || !(s.job j).snap.todo.isEmpty

/-- Changes the snapshot record of job `j`. -/
def modSnap (s : State) (j : Nat) (f : Snap → Snap) : State := s.modJob j fun b => { b with snap := f b.snap }

/-- The cores of a resident job pause, or resume, with their arrival paths open or closed (R405, R406). -/
def pauseCores (s : State) (j : Nat) (pause closed : Bool) : State :=
  { s with cores := s.cores.map fun c =>
      if c.job == some j && c.cpu.st != .fenced && c.cpu.st != .saving then { c with withheld := pause, dma := { c.dma with closed } } else c }

/-- The job's state at the time of a stop: what a held preemption left (R402). -/
def stateAt (b : Job) : Nat := if b.state = 7 then b.leftState else b.state

/-- SNAPSHOT at its release (R404-R406). -/
def snapshotEffect (s : State) (o : Out) (p : SnapSrc) : State :=
  let j := o.h.job
  let b := s.job j
  let d := p.dests % 4
  if !([3, 4, 5, 6].contains b.state) then s.fail o.uid 2
  else if d = 0 || (bit d 1 && !s.nvmeUsable p.ctrl p.ns) then s.fail o.uid 3
  else if s.imagesLeft j || b.snap.state = 1 || b.snap.state = 2 then s.fail o.uid 4
  else
    let drain := s.cores.zipIdx.flatMap fun c =>
      if c.1.job == some j then (c.1.dma.q.filter fun i => i.phase == .running).map fun i => (c.2, i.uid) else []
    let s := s.modSnap j fun n => { n with
      id := p.id, state := 1, stop := true, drained := false, dests := d, bx := p.bx, by_ := p.bY, bz := p.bz, ns := p.ns, ctrl := p.ctrl, lba := p.lba
      uid := some o.uid, start := o.effect, late := o.late, drain, todo := [], total := 0, taken := 0, digests := [], buddyFailed := false
      nvmeFailed := false, imageFailed := false, manifest := [], lastBuddy := if bit d 0 then some (p.bx, p.bY, p.bz) else n.lastBuddy }
    if b.state = 5 then s else s.pauseCores j true false

/-- The stop ends: held stop requests are delivered, the cores resume, collectives held back start (R402, R405, R407). -/
def endStop (s : State) (j : Nat) : State :=
  let held := (s.job j).preemptHeld
  let s := s.modSnap j fun n => { n with stop := false, drained := false, endTime := s.now }
  let s := if held then (s.modJob j fun b => { b with preemptHeld := false }).deliverStop j else s
  let st := (s.job j).state
  let s := if st = 5 then s else s.pauseCores j (st == 7) false
  let s := if st = 7 || st = 5 then s else (List.range s.cores.length).foldl (fun s n => if ((s.core? n).bind (·.job)) == some j then s.headWatch n else s) s
  s.startDeferred j

/-- The stop is abandoned: nothing is frozen, the command fails with a reason (R407, R408). -/
def abandonStop (s : State) (j rs : Nat) : State :=
  let u := (s.job j).snap.uid
  let s := (s.modSnap j fun n => { n with state := 4, uid := none, todo := [] }).endStop j
  match u with
  | some u => s.fail u rs
  | none => s

/-- The drain of job `j` is complete (R407). -/
def drainDone (s : State) (j : Nat) : Bool :=
  !((s.job j).snap.drain.any fun d => ((s.core? d.1).map fun c => c.dma.q.any fun i => i.uid == d.2).getD false) &&
    !(s.colls.any fun c => c.job == j && (c.busy || c.phase == .released))

/-- The device judges its drain at T + 2 ms (R405, R407). -/
def judgeDrain (s : State) (j : Nat) : State :=
  let n := (s.job j).snap
  if n.stop && n.state = 1 && !n.drained then
    let s := s.timeTo (n.start + 2000000)
    if s.drainDone j then
      let s := s.modSnap j fun n => { n with drained := true }
      if (s.job j).state = 5 then s else s.pauseCores j true true
    else s.abandonStop j 4
  else s

/-- The state image of a cell, as 40 frames would hold it, from offset 0 of its save area (R381, R408), with the save it stands for. -/
def cellImage (s : State) (j n : Nat) (sd : Nat) : Memory × Option Save :=
  let b := s.job j
  match b.cells[n]? with
  | none => ([], none)
  | some c =>
    if b.state = 5 then
      let m := s.mem.slice (saveArea j n) 0x280000
      (if c.save.state = 2 then m else m.write 0x272000 [3], none)
    else if stateAt b = 3 then (Memory.write [] 0x272000 (headerBytes 2 0 c.lcn s.now 0), none)
    else
      match s.core? c.lcn with
      | some k =>
        if !c.valid || c.lost || k.cpu.st == .fenced then (Memory.write [] 0x272000 (headerBytes 3 0 c.lcn s.now 0), none)
        else
          let woken := k.cpu.endCycle.waits.any fun w => w.eng == engFsd && w.wakeAt.isSome
          let q := k.dma.q.zipIdx.map fun i => if woken && i.2 = 0 && i.1.phase == .queued then { i.1 with phase := .woken } else i.1
          let code := k.stateCode
          let u := stopCpu sd k.cpu
          let m := saveBytes sd c.lead u [] 0
          let m := (m.write 0x272000 (headerBytes 2 code c.lcn s.now q.length)).write 0x273000 (q.flatMap (restartEntry k))
          (m, some ⟨2, code, some (controlOf u), k.obs, q.map (·.members)⟩)
      | none => ([], none)

/-- The state frames of a cell, and what its control record stands for (R408; log entry 27). -/
def cellFrames (s : State) (j n : Nat) : State × List SnapImage :=
  let x := s.cellImage j n s.free
  let frames := (List.range 40).map fun f => SnapImage.frame n f (x.1.slice (65536 * f) 65536)
  let s := s.seeded
  (match x.2 with
   | some sv => { s with controls := (x.1.read 0x270000 64, sv) :: s.controls }
   | none => s, frames)

/-- Objects of job `j`, in the order of the manifest's object table. -/
def jobObjs (s : State) (j : Nat) : List Obj := s.objs.filter fun x => x.owner == j

/-- The mapped blocks of the job's snap objects, in image order (R409, R412). -/
def snapBlocks (s : State) (j : Nat) : List Nat :=
  ((s.jobObjs j).filter (·.snap)).flatMap fun x => ((List.range x.count).map (· + x.first)).filter fun b => s.mapped b

/-- The manifest up to its digest list (R416). -/
def manifestHead (s : State) (j images : Nat) : List Byte :=
  let b := s.job j
  let objs := s.jobObjs j
  record 56 [(0, 4, 0x4B544D46), (4, 2, 1), (6, 1, if s.fuses.tk9620 then 0x20 else 0x40), (8, 4, b.snap.id), (12, 4, b.snap.epoch), (16, 8, b.snap.start),
      (24, 8, s.fuses.serial), (32, 1, s.fab.x), (33, 1, s.fab.y), (34, 1, s.fab.z), (36, 4, objs.length), (40, 4, b.cells.length), (44, 4, b.groups.length),
      (48, 8, images)] ++
    bytesAt (loadBytes b) 0 72 ++ List.replicate 128 0 ++ (objs.flatMap fun x => (s.objRecord x).take 24 ++ leBytes 8 x.num) ++ b.groups.flatMap groupEntry

/-- Every core of a resident job has landed what it issued (R406). -/
def allQuiet (s : State) (j : Nat) : Bool := s.cores.all fun c => c.job != some j || c.cpu.st == .fenced || quietCpu c.cpu

/-- The state images are written and the epoch advances (R408, R409). -/
def advanceEpoch (s : State) (j : Nat) : State :=
  let n := (s.job j).snap
  if n.stop && n.state = 1 && n.drained && ((s.job j).state = 5 || s.allQuiet j) then
    let need := 40 * (s.job j).cells.length
    let fromReserve := need - s.freeFrames 0
    if s.reserve < fromReserve then s.abandonStop j 3
    else
      let r := (List.range (s.job j).cells.length).foldl (fun (acc : State × List SnapImage) c =>
        let x := acc.1.cellFrames j c
        (x.1, acc.2 ++ x.2)) (s, [])
      let s := { r.1 with reserve := r.1.reserve - fromReserve }
      let blocks := s.snapBlocks j
      let mine (m : Move) : Bool := !m.cow && (match s.objOf m.block with
        | some x => x.owner == j
        | none => false)
      let s := (s.moves.filter mine).foldl (fun s m => s.requeueMove m) s
      let s := blocks.foldl (fun s b => s.freezeBlk j b) s
      let todo := r.2 ++ blocks.map SnapImage.block
      let s := s.modSnap j fun n => { n with epoch := wrapAdd 32 n.epoch 1, state := 2, todo, total := todo.length }
      s.modSnap j fun n => { n with manifest := s.manifestHead j todo.length }
  else s

/-- The stop ends once the copy-on-write reserve is full (R405, R410; log entry 33). -/
def stopEnds (s : State) (j : Nat) : State :=
  let n := (s.job j).snap
  if n.stop && n.state = 2 && s.reserveSize ≤ s.reserve then s.endStop j else s

/-- The stop bound expires (R405). -/
def stopBounded (s : State) (j : Nat) : State :=
  let n := (s.job j).snap
  if n.stop then
    let s := s.timeTo (n.start + s.stopBoundNs)
    if n.state = 2 then s.endStop j else s.abandonStop j 4
  else s

/-- A cell is fenced during the stop before the epoch advances (R402). -/
def snapFenced (s : State) (j : Nat) : State :=
  let n := (s.job j).snap
  if n.stop && n.state = 1 then s.abandonStop j 0 else s

/-- The tag of an image (R413). -/
def imageTag : SnapImage → Nat
  | .block b => blkAddr b
  | .frame c f _ => 0xFFFF000000000000 + 40 * c + f

/-- The bytes of an image; `none` when they hold an uncorrectable error (R239, R412). -/
def imageBytes (s : State) (j : Nat) : SnapImage → Option (List Byte)
  | .frame _ _ d => some (d.read 0 65536)
  | .block b =>
    match (s.keptImage j b).bind (·.data) with
    | some d => some (d.read 0 65536)
    | none =>
    match s.blk? b with
    | some k =>
      (match k.image.bind (·.data) with
       | some d => some (d.read 0 65536)
       | none => if k.poisoned then none else some (s.mem.read (blkAddr b) 65536))
    | none => none

/-- An image is read in class EMBER (R26, R412, R427). -/
def countImage (s : State) (j : Nat) : SnapImage → State
  | .frame c f _ =>
    let d := (((s.job j).cells[c]?).bind fun x => (s.core? x.lcn).map fun k => dieOf k.phys).getD 0
    let st := s.stackIn [3 * d, 3 * d + 1, 3 * d + 2] (Config.free 0 75 (64 * c + f))
    (List.range 16).foldl (fun s i => s.countAt (0, 16 * st + i) 4096 false 2) s
  | .block b =>
    match (s.keptImage j b).or ((s.blk? b).bind (·.image)) with
    | some i =>
      let t := i.tier
      let st := i.stack
      let l := s.stripes
      (List.range 16).foldl (fun s i =>
        s.countAt (if t = 0 then (0, 16 * st + (i + b % 16) % 16) else (1, l.getD ((i + b % max 1 l.length) % max 1 l.length) 0)) 4096 false 2) s
    | none => s

/-- An image leaves for the buddy, on the BULK channel (R301, R412; log entry 33). -/
def sendImage (s : State) (j : Nat) (tag : Nat) (d : List Byte) : State :=
  let n := (s.job j).snap
  (List.range 256).foldl (fun s k => s.sendPacket none (n.bx, n.by_, n.bz) pkWrite (tag + 256 * k) 0x3FF 0 (s.job j).jobTag k (bytesAt d (256 * k) 256)) s

/-- A Write to the job's NVMe destination (R414). -/
def nvmePut (s : State) (j lba : Nat) (fua : Bool) (d : List Byte) : State :=
  let n := (s.job j).snap
  { s with sent := .nvmeWrite n.ctrl n.ns lba fua d :: s.sent }

/-- The first LBA of image `i` in a snapshot that starts at `l`, and of its manifest, which follows the images (R414). -/
def imageLba (l i : Nat) : Nat := l + 16 + 16 * i

/-- The anchor: one LBA whose first 72 bytes name the manifest (R416). -/
def anchorBytes (id lba len : Nat) (digest : List Byte) : List Byte :=
  record 24 [(0, 4, 0x4B54414E), (4, 4, id), (8, 8, lba), (16, 8, len)] ++ bytesAt digest 0 48 ++ List.replicate 4024 0

/-- The manifest goes to NVMe in whole LBAs, then a Flush, and last the anchor (R414, R416). -/
def nvmeClose (s : State) (j : Nat) (m : List Byte) : State :=
  let n := (s.job j).snap
  let lba := imageLba n.lba n.total
  let s := s.nvmePut j lba false (bytesAt m 0 (4096 * ceilDiv m.length 4096))
  { s with sent := .nvmeFlush n.ctrl n.ns :: s.sent }.nvmePut j n.lba true (anchorBytes n.id lba m.length (Config.sha384 m))

/-- The manifest goes to the buddy, on the BULK channel (R415; log entry 33). -/
def sendManifest (s : State) (j : Nat) (m : List Byte) : State :=
  let n := (s.job j).snap
  (List.range (ceilDiv m.length 256)).foldl (fun s k =>
    s.sendPacket none (n.bx, n.by_, n.bz) pkWrite (2 ^ 62 + 256 * k) 0x3FF 0 (s.job j).jobTag k ((m.drop (256 * k)).take 256)) s

/-- The snapshot is over: its final reply (R417). -/
def finishSnap (s : State) (j : Nat) : State :=
  let n := (s.job j).snap
  let bad := n.imageFailed || (bit n.dests 0 && n.buddyFailed) || (bit n.dests 1 && n.nvmeFailed)
  let s := s.modSnap j fun n => { n with state := if bad then 4 else 3, uid := none }
  match n.uid with
  | some u => s.finish u (if bad then 3 else 0) 0 n.epoch
  | none => s

/-- Every image is taken: the manifest is written; an NVMe anchor is still to be written (R412, R414, R416). -/
def closeSnap (s : State) (j : Nat) : State :=
  let n := (s.job j).snap
  let body := n.manifest ++ n.digests.flatten
  let m := body ++ Config.sha384 body
  let s := s.modSnap j fun n => { n with manifest := m }
  let s := if bit n.dests 0 && !n.buddyFailed then s.sendManifest j m else s
  if bit n.dests 1 && !n.nvmeFailed then s.nvmeClose j m else s.finishSnap j

/-- The next image of job `j` has been acknowledged by, or has failed at, every destination (R412, R413, R417, R418). -/
def takeNext (s : State) (j : Nat) (buddyOk nvmeOk readErr : Bool) : State :=
  let n := (s.job j).snap
  match n.state, n.todo with
  | 2, i :: rest =>
    let noDigest := s.digestFailed.all id
    let s := s.countImage j i
    let data := if readErr || noDigest then none else s.imageBytes j i
    let s := if readErr then (match i with
      | .block b => if (s.keptImage j b).isNone && (s.blk? b).any fun k => (k.image.bind (·.data)).isNone then s.spoilAt (blkAddr b) 0 else s
      | .frame _ _ _ => s) else s
    let bytes := data.getD (List.replicate 65536 0)
    let buddy := bit n.dests 0 && !n.buddyFailed
    let nvme := bit n.dests 1 && !n.nvmeFailed
    let s := if buddy && data.isSome then s.sendImage j (imageTag i) bytes else s
    let s := if nvme && data.isSome then s.nvmePut j (imageLba n.lba n.taken) false bytes else s
    let lostB := buddy && data.isSome && !buddyOk
    let lostN := nvme && data.isSome && !nvmeOk
    let s := s.modSnap j fun n => { n with
      todo := rest, taken := n.taken + 1, digests := n.digests ++ [Config.sha384 (bytes ++ leBytes 8 (imageTag i) ++ leBytes 4 n.id)]
      buddyFailed := n.buddyFailed || lostB, nvmeFailed := n.nvmeFailed || lostN, imageFailed := n.imageFailed || data.isNone }
    let s := match n.uid.bind s.out? with
      | some o => if data.isNone || lostB || lostN then s.blockRecord o n.taken 3 0 else s
      | none => s
    let s := match i with
      | .block b => s.takeImage j b
      | .frame _ _ _ => s.refillOne
    if rest.isEmpty then s.closeSnap j else s
  | _, _ => s

/-- An NVMe command of the copy completes, or times out after 1 s (R414, R418). -/
def nvmeDone (s : State) (j : Nat) (ok : Bool) : State :=
  let n := (s.job j).snap
  if n.state = 2 && bit n.dests 1 && !n.nvmeFailed then
    let s := if ok then s else s.modSnap j fun n => { n with nvmeFailed := true }
    if n.todo.isEmpty && n.taken = n.total then s.finishSnap j else s
  else s

/-- A buddy that can no longer be reached fails the copies to it (R311, R418). -/
def buddyLost (s : State) (p : Nat × Nat × Nat) : State :=
  { s with jobs := s.jobs.map fun b =>
      if b.snap.state = 2 && bit b.snap.dests 0 && (b.snap.bx, b.snap.by_, b.snap.bz) == p then { b with snap := { b.snap with buddyFailed := true } } else b }

/-- A generation of the key that is still being received. -/
def receiving (x y z tag : Nat) (g : StoreGen) : Bool := g.x == x && g.y == y && g.z == z && g.tag == tag && !g.complete

/-- This device receives an image or a manifest as a buddy (R415). -/
def storeImage (s : State) (x y z tag : Nat) (manifest digestOk : Bool) (d : List Byte) : State :=
  let mine := receiving x y z tag
  if manifest then
    match s.store.find? mine with
    | some g =>
      if digestOk then
        let old (h : StoreGen) : Bool := h.x == x && h.y == y && h.z == z && h.tag == tag
        { s with store := (s.store.filter fun h => !old h) ++ [{ g with complete := true, manifest := d }] }
      else { s with store := s.store.filter fun h => !mine h }
    | none => s
  else if s.freeFrames 1 = 0 then { s with store := s.store.filter fun h => !mine h }
  else if s.store.any mine then { s with store := s.store.map fun h => if mine h then { h with images := h.images ++ [d] } else h }
  else { s with store := s.store ++ [⟨x, y, z, tag, false, [d], []⟩] }

/-- BOUNDED_LOSS (R419). -/
def boundedEffect (s : State) (o : Out) (n : Nat) : State :=
  if !s.jobLive o.h.job then s.fail o.uid 2
  else if 1000 < n then s.fail o.uid 6
  else if (s.job o.h.job).snap.lastBuddy.isNone then s.fail o.uid 3
  else (s.modSnap o.h.job fun x => { x with bounded := n }).finish o.uid 0 0 0

/-- The snapshot status record (R417). -/
def snapRecord (s : State) (j : Nat) : List Byte :=
  let n := (s.job j).snap
  record 64 [(0, 4, n.epoch), (4, 4, n.id), (8, 1, n.state), (9, 1, n.dests), (10, 2, n.bounded), (12, 4, n.todo.length), (16, 8, n.total), (24, 8, n.endTime),
    (32, 4, s.reserve), (36, 4, n.cowLate), (40, 4, n.marks)]

/-- SNAP_QUERY (R417). -/
def snapQueryEffect (s : State) (o : Out) (buf : Nat) : State :=
  if !s.jobLive o.h.job then s.fail o.uid 2 else s.answer o buf (s.snapRecord o.h.job) (s.job o.h.job).snap.epoch

/-- The first SNAPSHOT accepted sets the copy-on-write reserve up (R410). -/
def keepReserve (s : State) : State := if s.reserveKept then s else { s with reserveKept := true, reserve := min s.reserveSize (s.freeFrames 0) }

/-- RESTORE, as it takes effect: its source is named and its context can take it (R420). -/
def restoreEffect (s : State) (o : Out) (p : SnapSrc) : State :=
  let j := o.h.job
  let d := p.dests % 4
  if (s.job j).state ≠ 5 then s.fail o.uid 2
  else if d = 0 || d = 3 || (d = 2 && !s.nvmeUsable p.ctrl p.ns) then s.fail o.uid 3
  else if (s.job j).rest.isSome then s.fail o.uid 4
  else s.modJob j fun b => { b with rest := some ⟨o.uid, p.id, d, (p.bx, p.bY, p.bz), none, [], false, 0, false, false⟩ }

/-- A restore ends without a change (R420). -/
def dropRestore (s : State) (j st rs : Nat) : State :=
  match (s.job j).rest with
  | some r => (s.modJob j fun b => { b with rest := none }).finish r.uid st rs 0
  | none => s

/-- An object of a manifest's table (R237, R416). -/
def objOfEntry (j : Nat) (e : List Byte) : Obj :=
  let w0 := fieldAt e 0 8
  let w1 := fieldAt e 8 8
  let w2 := fieldAt e 16 8
  ⟨bits (fieldAt e 24 8) 13 0, bits w0 26 0, bits w0 59 32, bits w1 3 0, bits w1 7 4, bits w1 9 8, bits w1 21 16, j, bit w1 27, bits w1 28 28, 0, bits w2 31 0,
    bits w2 63 32⟩

/-- Objects listed in a manifest. -/
def manifestObjs (j : Nat) (m : List Byte) : List Obj := (List.range (fieldAt m 36 4)).map fun i => objOfEntry j (bytesAt m (256 + 32 * i) 32)

/-- Maps a listed object, its blocks zero (R420 step 3; log entry 33). -/
def mapListed (s : State) (x : Obj) : State :=
  let n := if s.objs.any fun y => y.num == x.num then s.freeObj else x.num
  let s := ({ s with objs := s.objs ++ [{ x with num := n }] }).seeded
  ((List.range x.count).map (· + x.first)).foldl (fun s b => (s.mapBlk x.initTier b).seeded) s

/-- The manifest of a restore has been read (R420 steps 1-3). -/
def readManifest (s : State) (j : Nat) (r : Rest) (ok : Bool) (m : List Byte) : State :=
  let b := s.job j
  let src := r.failed.getD s.here
  let objs := manifestObjs j m
  let others := s.objs.filter fun x => x.owner != j
  let same := fieldAt m 0 4 = 0x4B544D46 && fieldAt m 8 4 = r.id && (fieldAt m 32 1, fieldAt m 33 1, fieldAt m 34 1) == src &&
    (r.failed.isSome || fieldAt m 24 8 = s.fuses.serial)
  let total := objs.foldl (fun n x => n + x.count) 0
  let own := (s.jobObjs j).foldl (fun n x => n + x.count) 0
  if m.isEmpty then s.dropRestore j 3 3
  else if !ok then s.dropRestore j 7 0
  else if !same then s.dropRestore j 3 3
  else if !(fieldAt m 84 2 = b.jobTag && fieldAt m 80 1 = b.gx && fieldAt m 81 1 = b.gy && fieldAt m 86 1 = b.leads.length) then s.dropRestore j 3 2
  else if objs.any (fun x => others.any fun y => x.first < y.first + y.count && y.first < x.first + x.count) || s.freeFrames 0 + s.freeFrames 1 + own < total
    then s.dropRestore j 3 3
  else
    let s := (s.jobObjs j).foldl (fun s x => s.dropObject x 3) s
    let s := objs.foldl (fun s x => s.mapListed x) s
    s.modJob j fun b => { b with rest := some { r with manifest := m, started := true } }

/-- Where image `i` of a manifest goes: an address of the device (R412, R420 step 4). -/
def imagePlace (j : Nat) (m : List Byte) (i : Nat) : Nat :=
  let frames := 40 * fieldAt m 40 4
  if i < frames then saveArea j (i / 40) + 65536 * (i % 40)
  else
    let blocks := ((manifestObjs j m).filter (·.snap)).flatMap fun x => (List.range x.count).map (· + x.first)
    blkAddr (blocks.getD (i - frames) 0)

/-- What a restored save area stands for (R381, R420; log entry 27). -/
def saveOf (s : State) (a : Nat) : Save :=
  let st := s.mem.readLE (a + 0x272000) 1
  let key := s.mem.read (a + 0x270000) 64
  let stopped := s.mem.readLE (a + 0x272001) 1
  match s.controls.find? fun c => c.1 == key with
  | some c => { c.2 with state := st, stopped }
  | none =>
    if key.all (· == 0) then ⟨st, stopped, none, CoreObs.reset, []⟩
    else match decodeControl (s.mem.read (a + 0x270000) 0x2000) with
      | some sv => { sv with state := st, stopped }
      | none => ⟨3, stopped, none, CoreObs.reset, []⟩

/-- Every image has been restored (R420 step 5): groups, epoch, saves. -/
def endRestore (s : State) (j : Nat) (r : Rest) : State :=
  let m := r.manifest
  let s := s.modJob j fun b => { b with rest := none, landed := [] }
  if r.bad then
    let s := (List.range (s.job j).cells.length).foldl (fun s n => { s with mem := s.mem.write (saveArea j n + 0x272000) [3] }) s
    let s := s.modJob j fun b => { b with cells := b.cells.map fun c => { c with save := { c.save with state := 3 }, lost := true, valid := false } }
    (s.writeMap j).finish r.uid 7 0 0
  else
    let gs := groupsOf (fieldAt m 44 4) (m.drop (256 + 32 * fieldAt m 36 4))
    let saves := (List.range (s.job j).cells.length).map fun n => s.saveOf (saveArea j n)
    let left := if saves.all fun v => v.control.isNone then 3 else if saves.all fun v => v.stopped = 0 then 6 else 4
    let s := s.modJob j fun b => { b with
      groups := gs, groupsNext := [], leftState := left
      cells := b.cells.zipIdx.map fun c =>
        let sv := saves.getD c.2 Save.empty
        { c.1 with save := sv, lost := sv.state != 2, valid := sv.state == 2, ended := sv.stopped == 0 && left != 3 } }
    let s := (s.modSnap j fun n => { n with epoch := fieldAt m 12 4 }).writeMap j
    s.finish r.uid 0 0 (if r.failed.isSome then 0 else fieldAt m 48 8)

/-- The next image of a restore is read, in class EMBER, and checked (R26, R420 step 4). -/
def restoreNext (s : State) (j : Nat) (r : Rest) (ok : Bool) (d : List Byte) : State :=
  let a := imagePlace j r.manifest r.next
  let ok := ok && !(s.digestFailed.all id)
  let s := s.countRange a 65536 true 2 []
  let s := if ok then { s with mem := s.mem.write a (bytesAt d 0 65536) }
    else
      let s := match s.region a with
        | .tiered b => s.modBlk b fun k => { k with poisoned := true }
        | _ => { s with poison := if s.poison.contains (a / 65536) then s.poison else s.poison ++ [a / 65536] }
      match s.out? r.uid with
      | some o => s.blockRecord o r.next 7 0
      | none => s
  let r := { r with next := r.next + 1, bad := r.bad || !ok }
  if fieldAt r.manifest 48 8 ≤ r.next then s.endRestore j r else s.modJob j fun b => { b with rest := some r }

/-- An ADOPT may begin its restore: time is LOCKED, and a link to the buddy is ACTIVE (R421). -/
def adoptReady (s : State) (r : Rest) : Bool :=
  !r.waits || (s.time.state == 2 && (r.dests != 1 || s.links.any fun l => l.state == 4 && l.peer.valid && (l.peer.x, l.peer.y, l.peer.z) == r.buddy))

/-- A restore's manifest, then each of its images, is read (R420). -/
def restoreEvent (s : State) (j : Nat) (ok : Bool) (d : List Byte) : State :=
  match (s.job j).rest with
  | some r =>
    if !s.adoptReady r then s
    else if !r.started then
      let s := s.readManifest j r ok d
      (match (s.job j).rest with
       | some r => if r.started && fieldAt r.manifest 48 8 = 0 then s.endRestore j r else s
       | none => s)
    else s.restoreNext j r ok d
  | none => s

end State
end Sys2Proof.Machine
end

