-- ==== Sys2Proof/Machine/FaultOps.lean ====
section
/-! DEFINITION. Faults (R20, R25, R58, R59, R250, R289, R392-R399), the device reset (R472), and JOB_RESET (R371). -/

namespace Sys2Proof.Machine
namespace State

/-- A device reset of a cause begins (R399, R472; log entry 35): what a reset keeps stays; a reset under way keeps its cause. -/
def beginReset (s : State) (cause : Nat) : State :=
  let t := State.afterReset s.fuses (if s.inReset then s.fw.cause else cause) s.now (s.free + 1) s.fenceList s.flash { s.ash with nonce := Config.free s.free 76 0 % 2 ^ 96 }
  { t with
    pending := s.pending, inReset := true, sent := s.sent, mgmtSeen := s.mgmtSeen, i3c := s.i3c
    memReg := { t.memReg with hbms := s.memReg.hbms.map fun k => ⟨false, false, 0, k.broken⟩ }
    pins := { s.pins with alive := false, faultN := if s.inReset then s.pins.faultN else true } }

/-- A power-on reset (R439, R472): the always-on domain loses its state too. -/
def powerOn (s : State) : State :=
  let t := State.afterReset s.fuses 0 s.now (s.free + 1) s.fenceList s.flash { Ash.empty with nonce := Config.free s.free 76 0 % 2 ^ 96 }
  { t with
    pending := s.pending, inReset := true, sent := s.sent, pins := { s.pins with alive := false, faultN := true }
    memReg := { t.memReg with hbms := s.memReg.hbms.map fun k => ⟨false, false, 0, k.broken⟩ } }

/-- Registers of a device-fatal record's snapshot (R442). -/
def fatalRegs : List Nat := [0x1000, regTimeStatus, 0x2000, regPoisonLast, 0x2180000, regAshStatus]

/-- A device-fatal fault: FAULT_N, the Ash record, a device reset (R399, R473, R493, R494). -/
def fatal (s : State) (code die unit rail cause : Nat) : State :=
  let s := { s with pins := { s.pins with faultN := false } }
  let s := s.ashPut 0xF die unit 0 [(32, 1, code), (33, 1, rail), (36, 4, unit)] fatalRegs
  let t := s.beginReset cause
  { t with pins := { t.pins with faultN := false } }

/-- A correctable error in a core's SRAM (R59). -/
def sramCorrected (s : State) (n unit : Nat) : State :=
  s.modCore n fun c => { c with eccCorrected := satAdd 32 c.eccCorrected 1, eccLast := unit }

/-- An arriving request fails at a fenced core (R289, R320). -/
def failArrival (s : State) (r : ArrReq) (taken : Bool) : State :=
  if r.issuer.isNone && r.member = 1 then
    match s.colls.find? fun c => c.uid == r.item with
    | some c => s.replyColl { c with notifyFailed := true }
    | none => s
  else s.failCopy r taken

/-- Items of a fenced core: what its router holds completes, at once or once its block has left its image (R25, R242), and every item fails with a
ring record and no report (R289). -/
def failItems (s : State) (n : Nat) : State :=
  let writing (s : State) : List Req := ((s.core? n).map fun c => c.dma.reqs.filter fun r => !r.queued && r.phase == .write).getD []
  let s := (writing s).foldl (fun s r => s.serveSlot n r.slot 0) s
  let left := (writing s).filterMap fun r => ((s.core? n).bind fun c => itemOfReq c r).bind fun i => match s.dstDest i r.piece.dst with
    | .mem a => some (a, keepBits (r.piece.keeps i) (s.mem.read a r.data.length) r.data, (none : Option AckTo))
    | _ => none
  let s := { s with stalled := s.stalled ++ left }
  match s.core? n with
  | some c => c.dma.q.foldl (fun s i => s.endItem n i 3 false false) s
  | none => s

/-- An item that a fenced core's arrival path tracks fails, whether or not a request of it is there now (R289). -/
def failTrack (s : State) (t : Track) : State :=
  match t.issuer with
  | some n =>
    (match (s.core? n).bind fun c => c.dma.q.find? fun i => i.uid == t.item with
     | some i => if i.members.isEmpty then s.failItem n t.item i.total else s.failMember n t.item t.member
     | none => s)
  | none => s

/-- Requests on their way into a fenced core, and the items it tracks, fail (R289). -/
def failArrivals (s : State) (n : Nat) : State :=
  match s.core? n with
  | some c =>
    let s := s.modCore n fun c => { c with dma := { c.dma with bufs := [], waiting := [], tracked := [], closed := true } }
    let s := c.dma.waiting.foldl (fun s r => s.failArrival r false) (c.dma.bufs.foldl (fun s r => s.failArrival r true) s)
    let s := c.dma.tracked.foldl failTrack s
    (((c.dma.bufs ++ c.dma.waiting).filterMap (·.issuer)).eraseDups).foldl refill s
  | none => s

/-- Items of other jobs that wait on a core of a job that is reset stop, and report ST_OWNER_LOST (R390, R391). -/
def loseArrivals (s : State) (n j : Nat) : State :=
  match s.core? n with
  | some c =>
    (c.dma.bufs ++ c.dma.waiting).foldl (fun s r => match r.issuer with
      | some m => if ((s.core? m).bind (·.job)) == some j then s else s.modItem m r.item fun i => { stopForming i with ownerLost := true }
      | none => s) s
  | none => s

/-- The core domain is gone (R58, R205). -/
def deadCpu (code unit : Nat) (c : Cpu) : Cpu :=
  let r := Cpu.reset c.lead
  { r with
    st := .fenced, cycle := c.cycle, lastPc := c.lastPc, banked := c.banked, rafDepth := c.rafDepth, owners := c.owners, ovf := c.ovf, passOverrun := c.passOverrun
    flt := if c.flt.valid then c.flt else ⟨code, 0, 0, if code = 0x20 then unit else 0, true⟩ }

/-- The cell on a fenced core is lost (R394 steps 5 and 6, R395, R402), or its restore is abandoned and starts on another core (R264). -/
def loseCell (s : State) (j cell phys : Nat) (restoring : Bool) : State :=
  if restoring then
    let s := s.modJob j fun b => { b with cells := modAt b.cells cell fun c => { c with restored := false } }
    let s := { s with outs := s.outs.map fun (o : Out) => if o.h.job == j && o.cmd == Cmd.jobResume && o.phase == OutPhase.armed then { o with phase := OutPhase.placing } else o }
    (s.jobEvent j 2 0 cell 0 phys).waitForCores j
  else
    let saving := (((s.job j).cells[cell]?).map fun c => c.save.state == 1) == some true
    let s := s.modJob j fun b => { b with cells := modAt b.cells cell fun c =>
      { c with lost := true, valid := false, save := if c.save.state = 1 then { c.save with state := 3 } else c.save } }
    let s := if saving then { s with mem := s.mem.write (saveArea j cell + 0x272000) [3] } else s
    let s := (s.writeMap j).jobEvent j 2 0 cell 0 phys
    let s := s.snapFenced j
    let b := s.job j
    let s := if b.policy = 0 then s.policyHalt j
      else if b.policy = 1 && (b.state = 3 || b.state = 4 || b.state = 6) then
        (match s.coreForCell (((b.cells[cell]?).map (·.lead)).getD false) with
         | some n => s.replaceCell j cell n
         | none => s)
      else s
    s.settleStops

/-- A core is fenced (R20, R289, R394). -/
def fenceCore (s : State) (n code unit : Nat) (router : Bool) : State :=
  match s.core? n with
  | some c =>
    if c.cpu.st == .fenced then s
    else
      let tag := match c.job with
        | some j => (s.job j).jobTag
        | none => 0
      let restoring := match c.job with
        | some j => (s.job j).state == 5
        | none => false
      let s := match c.job with
        | some j => s.cutCell j c.cell 3
        | none => s
      let s := s.modCore n fun c => { c with cpu := deadCpu code unit c.cpu, avail := false, stopSent := false, withheld := false, touches := [],
                                             routerFailed := c.routerFailed || router }
      let s := { s with availGen := wrapAdd 32 s.availGen 2, fenceList := s.fenceList ++ [c.phys] }
      let s := (s.failItems n).failArrivals n
      let base := 0x1000000 + 0x1000 * n
      let s := s.ashWrite 2 (dieOf c.phys) c.phys
        [(32, 1, code), (33, 1, if code = 0x20 then unit else 0), (35, 1, b2n c.job.isSome), (36, 1, c.job.getD 0), (40, 2, n),
          (42, 2, if c.job.isSome then c.cell else 0xFFFF), (44, 2, tag)] [base + 0x10, base + 8, base + 0x40, base + 0x18]
      let s := s.coreTrace n (traceRec s.now 7 s.time.valid n 0 [(16, 1, code), (20, 2, c.phys), (22, 1, 1)])
      let s := s.modCore n fun c => { c with job := none, cell := 0 }
      match c.job with
      | some j => s.loseCell j c.cell c.phys restoring
      | none => s
  | none => s

/-- CORE_FAULT (R59, R394): code 0 a corrected SRAM error, 0x20 and 0x21 the core faults. -/
def coreFaults (s : State) (n code unit : Nat) : State :=
  match s.core? n with
  | some c =>
    if c.cpu.st == .fenced then s
    else if code = 0 then s.sramCorrected n (unit % 16)
    else if code = 0x20 || code = 0x21 then s.fenceCore n code (unit % 16) false
    else s
  | none => s

/-- An engine's Ash record (R442, R493, R494). -/
def engineRecord (s : State) (die kind num failed : Nat) (regs : List Nat) : State :=
  s.ashWrite 6 die (256 * kind + num) [(32, 1, kind), (33, 1, num), (36, 4, failed)] (regs ++ [0x2303200, 0x2303208, 0x2303210, 0x2303218])

/-- A mover fails: its moves are abandoned and requeued (R250, R392). -/
def moverFails (s : State) (m : Nat) : State :=
  if 4 ≤ m || s.moverFailed.getD m true then s
  else
    let mine := s.moves.filter fun x => x.mover == m
    let s := { s with moverFailed := s.moverFailed.set m true }
    (mine.foldl (fun s x => s.requeueMove x) s).engineRecord m 0 m mine.length []

/-- A collective, digest or capture engine fails (R392). -/
def engineFails (s : State) (kind num : Nat) : State :=
  if kind = 1 then
    match s.engines[num]? with
    | some g =>
      if !g.present || g.failed then s
      else
        let mine := s.colls.filter fun c => c.phase != .notifying && c.engines.contains num
        let s := { s with engines := modAt s.engines num fun g => { g with failed := true } }
        let s := mine.foldl (fun s c => s.abortColl c 3 0) s
        (s.engineRecord (if num < 2 then 4 else 5) 1 num mine.length [0x2200010 + 0x1000 * num]).promoteColls
    | none => s
  else if kind = 2 then
    if 8 ≤ num || s.digestFailed.getD num true then s
    else ({ s with digestFailed := s.digestFailed.set num true }).engineRecord (if num < 4 then 4 else 5) 2 num 0 []
  else if kind = 3 then
    if 2 ≤ num || !s.capturePresent || (s.capEng.getD num ⟨true, 0⟩).failed then s
    else
      let hit := s.jobs.zipIdx.flatMap fun b => (b.1.caps.filter fun c => c.phase == .running && c.onEngine == num).map fun c => (b.2, c)
      let k := hit.length
      let s := hit.foldl (fun s x => s.cutCapture x.1 3 x.2) { s with capEng := modAt s.capEng num fun e => { e with failed := true } }
      s.engineRecord (4 + num) 3 num k [0x2303000 + 8 * num]
  else s

/-- Die of a warden and its index there (R15, R398, R493). -/
def wardenDie (w : Nat) : Nat := if w < 16 then w / 4 else if w < 18 then 4 else 5
def wardenIndex (w : Nat) : Nat := if w < 16 then w % 4 else w % 2

/-- Wardens of a die. -/
def wardensOn (d : Nat) : List Nat := if d < 4 then (List.range 4).map (· + 4 * d) else if d = 4 then [16, 17] else [18, 19]

/-- A warden that takes the work of warden `w` over: its peer, else one of the other pair of its die (R398). -/
def takesOver (s : State) (w : Nat) : Option Nat :=
  let peer := if w % 2 = 0 then w + 1 else w - 1
  (peer :: (wardensOn (wardenDie w))).find? fun x => x != w && !((s.wardens.getD x ⟨true, 0⟩).failed)

/-- A warden fails (R250, R398, R399): every move under way is abandoned and requeued. -/
def wardenFails (s : State) (w cause : Nat) : State :=
  match s.wardens[w]? with
  | some x =>
    if x.failed then s
    else
      let d := wardenDie w
      let s := { s with wardens := modAt s.wardens w fun x => { x with failed := true } }
      match s.takesOver w with
      | some p =>
        let s := s.moves.foldl (fun s m => s.requeueMove m) s
        s.ashWrite 7 d (wardenIndex w) [(32, 1, d), (33, 1, wardenIndex w), (34, 1, cause), (35, 1, wardenDie p), (36, 1, wardenIndex p), (40, 8, x.beat)] [regTimeNow]
      | none => s.fatal 1 d d 0xFF 4
  | none => s

/-- A heartbeat of warden `w` reaches its pair (R398). -/
def heartbeat (s : State) (w : Nat) : State := { s with wardens := modAt s.wardens w fun x => if x.failed then x else { x with beat := s.now } }

/-- JOB_RESET (R239, R371, R402): every other command and item of the job ends with ST_OWNER_LOST (R278; log entry 64), then its objects, cores,
groups, windows and capture slots go, and the context is EMPTY. -/
def jobResetEffect (s : State) (o : Out) : State :=
  let j := o.h.job
  let st := (s.job j).state
  if st = 0 || 8 ≤ j then s.fail o.uid 2
  else
    let early := (s.job j).snap.stop && (s.job j).snap.state == 1
    let s := s.modSnap j fun n => { n with stop := false, drained := false, uid := none, state := if early then 4 else n.state, endTime := if n.stop then s.now else n.endTime }
    let s := (s.colls.filter fun c => c.job == j && c.phase != .notifying).foldl (fun s c =>
      if c.phase != .accepted then s.abortColl c 5 0 else s.replyColl { c with status := 5, reason := 0, result := 0, notifyFailed := false }) s
    let s := (s.colls.filter fun c => c.job == j).foldl (fun s c => s.replyColl { c with status := 5, reason := 0, notifyFailed := true }) s
    let s := (s.jobObjs j).foldl (fun s x => s.dropObject x 5) s
    let s := (s.outs.filter fun x => x.h.job == j && x.uid != o.uid && x.cmd.namesJob).foldl (fun s x =>
      if x.blocks.isEmpty then s.finish x.uid 5 0 0 else x.blocks.foldl (fun s b => s.blockDone x.uid b 5 0) s) s
    let s := (s.cores.zipIdx.filter fun c => c.1.job == some j).foldl (fun s c =>
      let s := c.1.dma.q.foldl (fun s i => s.endItem c.2 i 5 false false) s
      (s.loseArrivals c.2 j).failArrivals c.2) s
    let s := (s.job j).caps.foldl (fun s c => if c.phase == .running then (match (s.cutCapture j 5 c).cap? j c.slot with
      | some x => (s.cutCapture j 5 c).endCapture j x x.status 0 x.bytes
      | none => s) else s) s
    let s := s.freeCores j
    let keep (i : Intent) : Bool := match i.origin with
      | .window k _ _ => k != j
      | .command u => (s.out? u).isSome
      | _ => true
    let s := { s with intents := s.intents.filter keep }
    let s := s.modJob j fun b => { Job.empty with ctxGen := b.ctxGen, mapGen := b.mapGen, snap := { b.snap with bounded := 0, lastBuddy := none } }
    (((s.setJobState j 0).writeMap j).finish o.uid 0 0 0).promoteColls

end State
end Sys2Proof.Machine
end

