-- ==== Sys2Proof/Machine/FlashMem.lean ====
section
/-! DEFINITION. The boot flash (R448-R455, R458): its store keeps the complement of each byte, so that an erased byte, 0xFF, is one it does not
list; its regions, the records of the CONFIG region, image headers and their checks; the authorisation block (R444). -/

namespace Sys2Proof.Machine

/-- Regions of the flash (R449). -/
def flashActive : Nat := 0
def flashPrevious : Nat := 0x02000000
def flashStaging : Nat := 0x04000000
def flashAsh : Nat := 0x06000000
def flashConfig : Nat := 0x06200000

/-- The settings record when the flash holds no valid copy, but for the management address, which serial and default prefix give (R452). -/
def defaultSettings (serial : Nat) : List Byte :=
  record 256 [(3, 1, 1), (4, 1, 1), (5, 1, 1), (16, 14, 2 ^ 108 - 1), (64, 4, 0xA9FE0100 + serial % 65024), (68, 1, 16), (80, 2, 64), (84, 4, 6144), (88, 2, 120),
    (92, 8, 2 ^ 64 - 1)]

/-- A fabric record of R366 has every field in its range (R306, R328). -/
def fabricInRange (r : List Byte) : Bool :=
  let f (i : Nat) : Nat := fieldAt r i 1
  let dim (d m : Nat) : Bool := 1 ≤ d && d ≤ m
  dim (f 3) 32 && dim (f 4) 32 && dim (f 5) 16 && f 0 < f 3 && f 1 < f 4 && f 2 < f 5 && f 7 ≤ 2 && f 8 < f 3 && f 9 < f 4 && f 10 < f 5 &&
    (!bit (f 14) 0 || (f 11 < f 3 && f 12 < f 4 && f 13 < f 5))

/-- The fabric configuration that a record gives (R366). -/
def fabricOf (r : List Byte) : FabCfg :=
  let f (i : Nat) : Nat := fieldAt r i 1
  let g := fieldAt r 16 14
  { x := f 0, y := f 1, z := f 2, dx := f 3, dy := f 4, dz := f 5, wx := bit (f 6) 0, wy := bit (f 6) 1, wz := bit (f 6) 2, source := f 7, mx := f 8, my := f 9,
    mz := f 10, sx := f 11, sy := f 12, sz := f 13, standby := bit (f 14) 0, groups := (List.range 36).map fun n => bits g (3 * n + 2) (3 * n), valid := true }

/-- The record of a fabric configuration (R366). -/
def fabricBytes (f : FabCfg) : List Byte :=
  record 64 [(0, 1, f.x), (1, 1, f.y), (2, 1, f.z), (3, 1, f.dx), (4, 1, f.dy), (5, 1, f.dz), (6, 1, b2n f.wx + 2 * b2n f.wy + 4 * b2n f.wz), (7, 1, f.source),
    (8, 1, f.mx), (9, 1, f.my), (10, 1, f.mz), (11, 1, f.sx), (12, 1, f.sy), (13, 1, f.sz), (14, 1, b2n f.standby),
    (16, 14, pack (f.groups.zipIdx.map fun g => (3 * g.2, 3, g.1)))]

/-- The ready mark of R458. -/
def readyMark (version len : Nat) : List Byte :=
  let b := leBytes 4 0x4B545244 ++ leBytes 4 version ++ leBytes 4 len
  b ++ leBytes 4 (crc32 b)

/-- A bytes record ends with the CRC-32 of what comes before (R451). -/
def crcEnds (b : List Byte) : Bool := fieldAt b (b.length - 4) 4 == crc32 (b.take (b.length - 4))

namespace State

/-- Reads the flash. -/
def flashRead (s : State) (a n : Nat) : List Byte := (s.flash.read a n).map (· ^^^ 0xFF)

/-- Programs bytes of the flash. -/
def flashWrite (s : State) (a : Nat) (bs : List Byte) : State := { s with flash := s.flash.write a (bs.map (· ^^^ 0xFF)) }

/-- Erases `n` bytes, in whole sectors of 64 KiB. -/
def flashErase (s : State) (a n : Nat) : State := { s with flash := s.flash.clear (a / 65536 * 65536) (ceilDiv (a % 65536 + n) 65536 * 65536) }

/-- Copies a region of images, header, mark and body, into another that it erases first. -/
def flashCopy (s : State) (src dst : Nat) : State := { s with flash := s.flash.paste dst 0x02000000 (s.flash.slice src 0x02000000) }

/-- Bytes of the flash that are erased. -/
def flashErased (s : State) (a n : Nat) : Bool := (s.flash.slice a n).isEmpty

/-- Slots of `len` bytes of a pair of sectors of the CONFIG region, as addresses. -/
def recordSlots (pair len : Nat) : List Nat :=
  let base := flashConfig + 131072 * pair
  (List.range (131072 / len)).map fun i => base + len * i

/-- The current copy of a record: the valid one with the highest sequence number at offset `at_`, with its address (R451). -/
def currentCopy (s : State) (pair len seqAt : Nat) : Option (Nat × List Byte) :=
  (recordSlots pair len).foldl (fun best a =>
    if s.flashErased a len then best
    else
      let b := s.flashRead a len
      if !crcEnds b then best
      else match best with
        | some x => if fieldAt x.2 seqAt 4 < fieldAt b seqAt 4 then some (a, b) else best
        | none => some (a, b)) none

/-- Writes a new copy of a record, its sequence number one above the last (R451): at the next free slot of the sector in use, or in the other
sector once that is full. -/
def writeCopy (s : State) (pair len seqAt : Nat) (body : List Byte) : State :=
  let cur := s.currentCopy pair len seqAt
  let seq := match cur with
    | some x => fieldAt x.2 seqAt 4 + 1
    | none => 1
  let b := (bytesAt body 0 seqAt ++ leBytes 4 seq ++ body.drop (seqAt + 4)).take (len - 4)
  let b := bytesAt b 0 (len - 4)
  let b := b ++ leBytes 4 (crc32 b)
  let base := flashConfig + 131072 * pair
  let sector := match cur with
    | some x => (x.1 - base) / 65536
    | none => 0
  let slots := (List.range (65536 / len)).map fun i => base + 65536 * sector + len * i
  match slots.find? fun a => (match cur with
      | some x => decide (x.1 < a)
      | none => true) && s.flashErased a len with
  | some a => s.flashWrite a b
  | none => let other := base + 65536 * (1 - sector); (s.flashErase other 65536).flashWrite other b

/-- The settings record that the flash holds (R451, R452). -/
def settingsRecord (s : State) : List Byte := match s.currentCopy 1 256 248 with
  | some x => x.2
  | none => defaultSettings s.fuses.serial

/-- The settings record in force: a record written since Kindling read it takes effect at the next device reset (R452). -/
def settings (s : State) : List Byte := s.fw.settings.getD s.settingsRecord

/-- A field of the settings, or its default when it lies outside its range (R452). -/
def setting (s : State) (off len lo hi dflt : Nat) : Nat := let v := fieldAt s.settings off len; if lo ≤ v && v ≤ hi then v else dflt

/-- Settings of R452. -/
def hostGibSetting (s : State) : Nat := s.setting 80 2 4 256 64
def traceMibSetting (s : State) : Nat := s.setting 84 4 96 24576 6144
def recoverySetting (s : State) : Nat := s.setting 88 2 10 3600 120
def initSetting (s : State) : Nat := fieldAt s.settings 76 4
def mgmtAddress (s : State) : Nat := fieldAt s.settings 64 4

/-- The fabric record of the settings, or its defaults (R452). -/
def fabricSetting (s : State) : FabCfg := let r := s.settings.take 64; fabricOf (if fabricInRange r then r else (defaultSettings 0).take 64)

/-- The boot state record (R455); all 0 when there is none (log entry 37). -/
def bootState (s : State) : List Byte := match s.currentCopy 0 64 4 with
  | some x => x.2
  | none => List.replicate 64 0

/-- Writes the boot state with its fields changed: image_state, attempts, fallback, update_phase, boot_count (R455). -/
def putBoot (s : State) (trial attempts fallback phase count : Nat) : State :=
  s.writeCopy 0 64 4 (record 64 [(0, 4, 0x4B544253), (8, 1, trial), (9, 1, attempts), (10, 1, fallback), (11, 1, phase), (12, 4, count), (16, 4, s.fw.actVersion),
    (20, 4, if s.fw.prevVerified then s.fw.prevVersion else 0)])

/-- The first check of R454 that a header fails; 0 when it passes codes 1-8. -/
def headerCheck (s : State) (h : List Byte) : Nat :=
  let slot := fieldAt h 9 1
  let hash := if slot = 0 then s.fuses.keyHash0 else s.fuses.keyHash1
  if fieldAt h 0 4 ≠ 0x4B544657 then 1
  else if fieldAt h 4 2 ≠ 1 then 2
  else if fieldAt h 6 2 ≠ 0x4B54 then 3
  else if s.fuses.stepping < fieldAt h 8 1 then 4
  else if fieldAt h 16 4 < 4096 || 33550336 < fieldAt h 16 4 then 5
  else if 1 < slot || s.fuses.revoked.testBit slot || !(s.fuses.programmed.testBit slot) then 6
  else if Config.sha384 (bytesAt h 72 97) != hash then 7
  else if !(Config.ecdsaVerify (bytesAt h 72 97) (Config.sha384 (bytesAt h 0 416)) (bytesAt h 416 48) (bytesAt h 464 48)) then 8
  else 0

/-- The header of an image region. -/
def imageHeader (s : State) (base : Nat) : List Byte := s.flashRead base 512

/-- The body of an image region passes (R454, code 9). -/
def bodyPasses (s : State) (base : Nat) : Bool :=
  let h := s.imageHeader base
  Config.sha384 (s.flashRead (base + 0x1000) (fieldAt h 16 4)) == bytesAt h 24 48

/-- An image region holds a valid ready mark (R458). -/
def readyAt (s : State) (base : Nat) : Bool :=
  let m := s.flashRead (base + 0x200) 16
  fieldAt m 0 4 == 0x4B545244 && fieldAt m 12 4 == crc32 (m.take 12)

/-- The first check that an image fails; 0 when it verifies (R454). -/
def verifyImage (s : State) (base : Nat) : Nat :=
  let c := s.headerCheck (s.imageHeader base)
  if c ≠ 0 then c else if !s.bodyPasses base then 9 else if !s.readyAt base then 10 else 0

/-- The first check that an authorisation block fails; 0 when it is correct (R444, R494). -/
def authCheck (s : State) (purpose : Nat) (seq : Option Nat) (b : List Byte) : Nat :=
  let key := bytesAt (s.imageHeader flashActive) 176 97
  if !(Config.ecdsaVerify key (Config.sha384 (bytesAt b 0 32)) (bytesAt b 32 48) (bytesAt b 80 48)) then 1
  else if fieldAt b 0 8 ≠ s.fuses.serial then 2
  else if seq.any fun q => decide (fieldAt b 8 8 ≠ q) then 3
  else if fieldAt b 16 4 ≠ purpose then 4
  else if fieldAt b 20 12 ≠ s.ash.nonce then 5
  else 0

/-- A fresh nonce (R444). -/
def freshNonce (s : State) : State := ({ s with ash := { s.ash with nonce := Config.free s.free 76 0 % 2 ^ 96 } }).seeded

/-- A failed authorisation: ST_NOT_AUTHORISED, an Ash record, a fresh nonce (R375, R444, R494). -/
def authFails (s : State) (o : Out) (purpose check : Nat) : State :=
  ((s.freshNonce).ashWrite 8 5 o.h.ring [(32, 1, purpose), (33, 1, o.h.ring), (34, 1, check), (36, 4, o.h.tag)] [regAshLast]).finish o.uid 10 0 0

end State
end Sys2Proof.Machine
end

