-- ==== Sys2Proof/Machine/TimeOps.lean ====
section
/-! DEFINITION. Fabric time (R324-R337): master, standby and followers, time symbols, sources, lock and holdover. -/

namespace Sys2Proof.Machine
namespace State

/-- Changes the time record. -/
def modTime (s : State) (f : TimeSt → TimeSt) : State := { s with time := f s.time }

/-- The device's role: 0 follower, 1 master, 2 standby master (R328, R343). -/
def roleOf (f : FabCfg) : Nat :=
  if (f.x, f.y, f.z) == (f.mx, f.my, f.mz) then 1 else if f.standby && (f.x, f.y, f.z) == (f.sx, f.sy, f.sz) then 2 else 0

/-- A TIME Ash record (R442, R493, R494). -/
def timeRecord (s : State) (before : Nat) (changed : Bool) : State :=
  let t := s.time
  s.ashWrite 4 5 (if t.parent = 63 then 0xFFFFFFFF else t.parent)
    [(32, 1, t.state), (33, 1, before), (34, 1, t.role), (35, 1, t.hops), (36, 1, b2n t.srcLost + 2 * b2n changed), (40, 4, signedField 32 (clampSigned 32 t.offsetPs))]
    [regTimeStatus, regTimeSource, regTimeOffset, regTimeNow]

/-- The one step of fabric time after a reset (R325, R327, R332); the watchdogs run on a clock of their own (R461). -/
def stepTime (s : State) (t : Nat) : State :=
  let move (d : Nat) : Nat := d - s.now + t
  { s with now := t, clockAt := move s.clockAt, time := { s.time with stepped := true },
           fw := { s.fw with startDog := s.fw.startDog.map move, confirmDog := s.fw.confirmDog.map move } }

/-- Fabric time is LOCKED, and from then on valid (R332, R343). -/
def lockTime (s : State) : State := s.modTime fun t => { t with state := 2, valid := true }

/-- Bits [15:0] of the serial number of the master named first: known of this device and of a neighbour, fixed and unknown of another (R333, R337). -/
def firstMaster (s : State) : Nat :=
  let m := (s.fab.mx, s.fab.my, s.fab.mz)
  if (s.fab.x, s.fab.y, s.fab.z) == m then s.fuses.serial % 65536
  else match s.links.find? fun l => l.peer.valid && (l.peer.x, l.peer.y, l.peer.z) == m with
    | some l => l.peer.serial % 65536
    | none => Config.free 0 87 (s.fab.mx + 32 * s.fab.my + 1024 * s.fab.mz) % 65536

/-- The parent link: the ACTIVE link with the smallest hop count, ties to the lower group code, then the lower link; of two masters the one named first
counts alone (R332, R337; log entry 38). -/
def bestParent (s : State) : Option Nat :=
  let all := s.links.zipIdx.filter fun l => l.1.state == 4 && l.1.peerHops < 255
  let first := all.filter fun l => l.1.peerMaster == s.firstMaster
  let key (x : Link × Nat) : Nat := (x.1.peerHops * 8 + x.1.group) * 64 + x.2
  match if first.isEmpty then all else first with
  | [] => none
  | x :: xs => some ((xs.foldl (fun b y => if key y < key b then y else b) x).2)

/-- The delay filter of a link takes one more symbol (R334; log entry 38). -/
def filterDelay (sd d : Nat) (l : Link) : Link :=
  let gap := if l.delayPs ≤ d then d - l.delayPs else l.delayPs - d
  if l.delayCount = 0 || 2000 < gap then { l with delayPs := d, delayCount := 1 }
  else { l with delayPs := min l.delayPs d + Config.free sd 77 0 % (gap + 1), delayCount := satAdd 16 l.delayCount 1 }

/-- How far fabric time may lag behind the parent's as a symbol arrives, in ns: nothing while the device steers, and in HOLDOVER and UNLOCKED an unknown
part of the bound of R336 (log entry 38). -/
def lag (s : State) (n : Nat) : Nat :=
  if s.time.state = 3 || s.time.state = 4 then Config.free s.free 86 n % (16 + 10 * ceilDiv (s.now - s.time.holdSince) 1000000 + 1) else 0

/-- A follower measures its parent: step, steering, lock. HOLDOVER ends with the measurement, UNLOCKED once the offset has been slewed away (R325,
R332, R334). -/
def followSym (s : State) (n tTx hops : Nat) : State :=
  let d := ((s.links[n]?).map (·.delayPs)).getD 0
  let s := if s.time.stepped then s.timeTo (tTx + d / 1000 - s.lag n) else s.stepTime (tTx + d / 1000)
  let off : Int := ((1000 * s.now : Nat) : Int) - ((1000 * tTx + d : Nat) : Int)
  let near := decide (off.natAbs ≤ 4000)
  let rate := ((Config.free s.free 78 n % 65536 : Nat) : Int) - 32768
  let s := s.seeded.modTime fun t => { t with
    parent := n, hops := min 126 (hops + 1), offsetPs := off, rateAdj := rate, master := ((s.links[n]?).map (·.peerMaster)).getD t.master
    within := if near then some (t.within.getD s.now) else none }
  if s.time.state = 1 then
    (match s.time.within with
     | some w => if w + 1000000 ≤ s.now then s.lockTime else s
     | none => s)
  else if s.time.state = 3 || (s.time.state = 4 && near) then s.lockTime
  else s

/-- A time symbol arrives on an ACTIVE link (R333, R334, R337). -/
def timeSymbol (s : State) (n tTx delayPs hops master : Nat) : State :=
  match s.links[n]? with
  | some l =>
    if l.state ≠ 4 then s
    else
      let s := (s.modLink n fun l => { filterDelay s.free delayPs l with lastTx := tTx, peerHops := hops, peerMaster := master }).seeded
      let s := if s.time.role ≠ 1 && s.time.state = 0 then s.modTime fun t => { t with state := 1, within := none } else s
      if s.time.role = 1 then
        if s.fab.standby && (s.fab.x, s.fab.y, s.fab.z) == (s.fab.sx, s.fab.sy, s.fab.sz) && roleOf s.fab != 1 && hops < 255 && master = s.firstMaster then
          let st := s.time.state
          ((s.modTime fun t => { t with role := 2, state := 1, hops := 127, within := none }).timeRecord st true).followSym n tTx hops
        else s
      else if s.bestParent = some n then s.followSym n tTx hops
      else s
  | none => s

/-- A time symbol is sent on an ACTIVE link (R333). -/
def sendSymbol (s : State) (n : Nat) : State :=
  match s.links[n]? with
  | some l =>
    if l.state ≠ 4 || l.disabling then s
    else
      let m := if s.time.role = 1 then s.fuses.serial % 65536 else s.time.master
      let data := record 32 [(0, 8, s.now), (8, 8, l.lastTx), (16, 4, Config.free s.free 79 n), (20, 1, if s.time.state = 2 then s.time.hops else 255),
        (21, 1, s.time.state), (22, 2, m)]
      let p := packetHeader (l.peer.x, l.peer.y, l.peer.z) s.here pkTime 32 0 0 0x3FF 0 0 0 ++ data
      let s := { s.seeded with packets := ((l.peer.x, l.peer.y, l.peer.z), 1, p) :: s.packets }.crossPort (n / 18) false p
      (s.transmit n 0 p).modLink n fun l => { l with symsSent := l.symsSent + 1 }
  | none => s

/-- No symbol from the parent: HOLDOVER, and a new parent is sought (R332). -/
def holdover (s : State) : State :=
  if s.time.role ≠ 1 && s.time.state = 2 then
    let s := s.modLink s.time.parent fun l => { l with peerHops := 255 }
    s.modTime fun t => { t with state := 3, holdSince := s.now, parent := 63, hops := 127, within := none }
  else s

/-- HOLDOVER has lasted 1 ms (R332). -/
def unlocked (s : State) : State :=
  if s.time.state = 3 then
    let s := s.timeTo (s.time.holdSince + 1000000)
    (s.modTime fun t => { t with state := 4, holdSince := s.now }).timeRecord 3 false
  else s

/-- The standby master has been in HOLDOVER or UNLOCKED for 1 ms (R337). -/
def takeOver (s : State) : State :=
  if s.time.role = 2 && (s.time.state = 3 || s.time.state = 4) then
    let st := s.time.state
    let s := if st = 3 then s.timeTo (s.time.holdSince + 1000000) else s
    (s.modTime fun t => { t with role := 1, state := 2, hops := 0, parent := 63, master := s.fuses.serial % 65536 }).timeRecord st true
  else s

/-- The master's source gives it a time: it locks at the first; after that its rate follows the source, and an offset beyond `near` is slewed away,
never stepped: while the source is away, or its offset is being slewed, the time it gives moves nothing (R325, R327, R329-R331; log entry 38). -/
def sourceTime (s : State) (t : Nat) (near : Nat) : State :=
  let s := if s.time.state = 0 then s.modTime fun x => { x with state := 1 } else s
  if !s.time.stepped then
    (s.stepTime t).lockTime.modTime fun x => { x with srcLocked := true, hops := 0, parent := 63, srcOffset := 0 }
  else
    let s := if s.time.srcLost || s.time.slewing then s else s.timeTo t
    let off : Int := ((s.now : Nat) : Int) - ((t : Nat) : Int)
    let rate := ((Config.free s.free 78 36 % 65536 : Nat) : Int) - 32768
    s.seeded.lockTime.modTime fun x => { x with srcLocked := true, srcLost := false, srcOffset := off, rateAdj := rate, slewing := near < off.natAbs, hops := 0, parent := 63 }

/-- A once-per-second mark at the master with source TIME_REF (R327, R329; log entry 38). -/
def ppsMark (s : State) : State :=
  if s.time.role = 1 && s.fab.source = 1 then
    if s.time.stepped then s.sourceTime (ceilDiv (s.now - 500000000) 1000000000 * 1000000000) 20
    else s.sourceTime (s.initSetting * 1000000000) 20
  else s

/-- A PTP exchange, in the configured domain, at the master with source IEEE 1588 (R327, R330; log entry 38). -/
def ptpTime (s : State) (t : Nat) : State := if s.time.role = 1 && s.fab.source = 2 then s.sourceTime t 10 else s

/-- The master loses its source (R331). -/
def loseSource (s : State) : State :=
  if s.time.role = 1 && s.time.srcLocked then
    (s.modTime fun t => { t with srcLost := true, srcLocked := false }).timeRecord s.time.state false
  else s

/-- The source returns (R331). -/
def sourceBack (s : State) : State :=
  if s.time.role = 1 && s.time.srcLost then
    s.seeded.modTime fun t => { t with srcLost := false, srcLocked := true, slewing := true, srcOffset := ((Config.free s.free 80 0 % 2 ^ 32 : Nat) : Int) - 2 ^ 31 }
  else s

/-- A link of the live set goes: a follower whose parent it was enters HOLDOVER (R305, R332). -/
def parentGone (s : State) (n : Nat) : State := if s.time.parent = n then s.holdover else s

end State
end Sys2Proof.Machine
end

