-- ==== Sys2Proof/Machine/LinkOps.lean ====
section
/-! DEFINITION. Yohorn links (R294-R312): flits, replay, training and failure, delivery and transit; the link and fabric commands (R28, R300, R305,
R366, R421). -/

namespace Sys2Proof.Machine

/-- A link with its sequence state and buffers as a new training leaves them (R297-R299). -/
def Link.fresh (l : Link) : Link :=
  { l with txSeq := 0, rxSeq := 0, unacked := [], txq := [], held := [], credit := fullCredit, nakSeq := 0, nakRun := 0, rx := [], sinceAck := 0,
           owed := List.replicate 12 0, ctlGap := 15, round := (0, 0) }

/-- Packets with a flit still on the link (R302). -/
def Link.keepHeld (l : Link) : Link :=
  { l with held := l.held.filter fun h => l.unacked.any (fun x => x.2.pkt == h.1) || l.txq.any fun x => x.pkt == h.1 }

/-- An ack covers the flits up to `seq` (R297). -/
def Link.acked (seq : Nat) (l : Link) : Link :=
  match l.unacked.findIdx? fun x => x.1 == seq with
  | some k => ({ l with unacked := l.unacked.drop (k + 1), nakRun := if (l.unacked.take (k + 1)).any fun x => x.1 == l.nakSeq then 0 else l.nakRun }).keepHeld
  | none => l

/-- The opposite group (R307). -/
def oppositeGroup (g : Nat) : Nat := if 6 ≤ g then 7 else if g % 2 = 0 then g + 1 else g - 1

namespace State

/-- The device at the other end of a group (R307). -/
def neighbour (s : State) (g : Nat) : Nat × Nat × Nat :=
  let a := g / 2
  let n := max 1 (s.dimOn a)
  let x := coordOn s.here a
  let y := if g % 2 = 0 then (x + 1) % n else (x + n - 1) % n
  let h := s.here
  if a = 0 then (y, h.2.1, h.2.2) else if a = 1 then (h.1, y, h.2.2) else (h.1, h.2.1, y)

/-- Packets in unacknowledged flits of a link are sent again on the other live links of its group; `out` sends them by an escape when there is none
(R302, R305, R310). -/
def resendHeld (s : State) (n : Nat) (out : Bool) : State :=
  match s.links[n]? with
  | some l =>
    let others := (s.liveLinks l.group).filter (· != n)
    l.held.foldl (fun s h =>
      if !others.isEmpty then s.putPacket (pickLink others h.2.2) h.2.1 h.2.2
      else if out then
        match s.escapeGroup l.group with
        | some e => ({ s with escape := bump64 s.escape 1 }).transmit (pickLink (s.groupLinks none e) h.2.2) 2 h.2.2
        | none => s.forwardPacket none none 2 h.2.2
      else s) s
  | none => s

/-- A link enters FAILED: its packets go elsewhere, an Ash record is written (R302, R304, R442, R494). -/
def failLink (s : State) (n code : Nat) : State :=
  let s := s.modLink n fun l => { l with state := 6, failCode := code }
  let s := ((s.resendHeld n true).modLink n Link.fresh).parentGone n
  match s.links[n]? with
  | some l =>
    let base := 0x2100000 + 0x1000 * n
    s.ashWrite 3 (if n < 18 then 4 else 5) n [(32, 1, l.failCode), (33, 1, l.group), (34, 1, l.retrains), (36, 1, l.peer.x), (37, 1, l.peer.y), (38, 1, l.peer.z),
      (39, 1, l.peer.link), (40, 8, l.peer.serial)] [base, base + 0x10, base + 0x20, base + 0x28, base + 0x30]
  | none => s

/-- An ACTIVE link enters RETRAIN; the fourth entry in 60 s fails it (R302, R304). -/
def retrain (s : State) (n : Nat) : State :=
  match s.links[n]? with
  | some l =>
    if l.state ≠ 4 then s
    else
      let times := s.now :: l.retrainTimes.filter fun t => s.now < t + 60000000000
      let s := s.modLink n fun l => { l with retrains := satAdd 8 l.retrains 1, retrainTimes := times, badTimes := [], nakRun := 0 }
      if 4 ≤ times.length then s.failLink n 5
      else (s.modLink n fun l => { l with state := 5 }).resendHeld n false
  | none => s

/-- A flit is discarded: a NAK flit names the seq expected (R294, R297). -/
def sendNak (s : State) (n : Nat) : State := s.linkOut n fun l => emit 2 0 0 l.rxSeq [] { l with naksSent := l.rxSeq :: l.naksSent }

/-- A NAK names the seq the receiver expects: every flit from it on is resent (R297); too many resends of one seq retrain the link (R304; log
entry 39). -/
def gotNak (s : State) (n seq : Nat) : State :=
  match s.links[n]? with
  | some l =>
    if l.state ≠ 4 then s
    else
      let l' := l.acked ((seq + 4095) % 4096)
      if !(l'.unacked.any fun x => x.1 == seq) then s.modLink n fun _ => l'
      else
        let run := if l'.nakSeq = seq && l'.nakRun ≠ 0 then l'.nakRun + 1 else 1
        let s := s.modLink n fun _ => { l' with nakSeq := seq, nakRun := run }
        if 9 ≤ run then s.retrain n
        else s.linkOut n fun l =>
          { l.unacked.foldl (fun m x => emit 0 x.2.vc x.2.cls x.1 x.2.body m) l with replay := bump64 l.replay l.unacked.length }
  | none => s

/-- The packet at the head of received bytes, and the rest; filler ends the bytes (R298; log entry 31). -/
def takePacket (bs : List Byte) : Option (List Byte × List Byte) :=
  if bs.length < 24 || bs.length < packetLen bs || isFiller bs then none
  else some (bs.take (packetLen bs), bs.drop (packetLen bs))

/-- What stays in the buffer once no whole packet is at its head: the start of a packet, or nothing where filler stands (log entry 31). -/
def restOf (bs : List Byte) : List Byte := if isFiller bs then [] else bs

/-- A packet has come on link `n` in a buffer class: once only, it is delivered here or sent on (R302, R308). One for the device leaves the port die
into the Flue, but for a collective's, which its engine takes (R301, R313). A number counts as delivered before while it lies in the half of the
numbers up to the newest (log entry 39). -/
def packetIn (s : State) (n cls : Nat) (p : List Byte) : State :=
  let g := ((s.links[n]?).map (·.group)).getD 7
  let vc := channelOf (packetKind p)
  let key := (4 * g + vc, packetNseq p)
  if s.nseqSeen.contains key then s
  else
    let s := { s with nseqSeen := key :: s.nseqSeen.filter fun x => x.1 != key.1 || (key.2 + 65536 - x.2 % 65536) % 65536 < 32768 }
    if packetDst p == s.here then
      let s := if vc = 2 then s else s.crossPort (n / 18) true p
      { s with delivered := (vc, p) :: s.delivered }
    else s.forwardPacket (some (n / 18)) (some (oppositeGroup g)) cls p

/-- Whole packets at the head of channel `vc`'s buffer are delivered. -/
def drainRx (s : State) (n vc cls : Nat) : Nat → State
  | 0 => s
  | f + 1 =>
    let buf := (((s.links[n]?).map (·.rx)).getD []).find? fun x => x.1 == vc
    match buf.bind fun x => takePacket x.2 with
    | some (p, rest) =>
      let s := s.modLink n fun l => { l with rx := (l.rx.filter fun x => x.1 != vc) ++ [(vc, rest)] }
      drainRx (s.packetIn n cls p) n vc cls f
    | none => s.modLink n fun l => { l with rx := l.rx.map fun x => if x.1 == vc then (vc, restOf x.2) else x }

/-- A flit has been received: the ack and the credits that it carries, what can go now, and what it owes the peer: an ack at the 64th flit (R294,
R297, R299). -/
def flitFields (s : State) (n w : Nat) : State :=
  let k := 3 * bits w 41 40 + bits w 43 42
  let s := (s.devCount 4 n 4).modLink n fun l =>
    { l.acked (bits w 29 18) with
      credit := modAt l.credit k fun c => min (fullCredit.getD k 0) (c + bits w 39 32), wasBad := false, sinceAck := min 64 (l.sinceAck + 1) }
  s.pump n

/-- An idle flit goes when an ack is due, or credit is owed that no flit has carried back (R294, R297, R299; log entry 65). -/
def idleDue (s : State) (n : Nat) : State :=
  s.linkOut n fun l => if l.state = 4 && !l.disabling && (l.sinceAck = 64 || l.owed.any (0 < ·)) then idleFlit l else l

/-- A data flit of the expected seq is delivered, and its buffer is free again (R296, R297, R299). -/
def dataFlit (s : State) (n : Nat) (f : List Byte) : State :=
  let w := fieldAt f 0 8
  let vc := bits w 1 0
  let s := s.modLink n fun l =>
    let old := ((l.rx.find? fun x => x.1 == vc).map (·.2)).getD []
    { l with rxSeq := (l.rxSeq + 1) % 4096, owed := modAt l.owed (3 * vc + bits w 3 2) (· + 1)
             rx := (l.rx.filter fun x => x.1 != vc) ++ [(vc, old ++ bytesAt f 8 244)] }
  s.drainRx n vc (bits w 3 2) 64

/-- Uncorrectable codewords that a bad flit shows: a codeword overlaps up to three flits, so one bad flit after another may show none that has not been
counted (R295; log entry 65). -/
def badCodewords (l : Link) (free : Nat) : Nat := if l.wasBad then Config.free free 85 0 % 2 else 1

/-- A flit is received (R294-R297, R304). -/
def flitIn (s : State) (n : Nat) (f : List Byte) (fecOk : Bool) : State :=
  match s.links[n]? with
  | some l =>
    if l.state ≠ 4 then s
    else if !fecOk then
      let k := badCodewords l s.free
      let times := List.replicate k s.now ++ l.badTimes.filter fun t => s.now < t + 1000000
      let s := (s.seeded.modLink n fun l => { l with fecUncorr := bump64 l.fecUncorr k, badTimes := times, wasBad := true }).sendNak n
      if 16 ≤ times.length then s.retrain n else s
    else
      let s := s.seeded.modLink n fun l => { l with fecCorr := bump64 l.fecCorr (Config.free s.free 81 n % 31) }
      if f.length ≠ 256 || fieldAt f 252 4 ≠ crc32 (f.take 252) then (s.modLink n fun l => { l with crcErr := bump64 l.crcErr 1, wasBad := false }).sendNak n
      else
        let w := fieldAt f 0 8
        let kind := bits w 5 4
        let seq := bits w 17 6
        if kind = 0 then (if seq = l.rxSeq then ((s.flitFields n w).dataFlit n f).idleDue n else (s.modLink n fun l => { l with wasBad := false }).sendNak n)
        else if kind = 1 then (s.flitFields n w).idleDue n
        else if kind = 2 then ((s.flitFields n w).gotNak n seq).idleDue n
        else s
  | none => s

/-- A link moves from a training state to another (R303). -/
def linkMove (s : State) (n src dst code : Nat) : State :=
  match s.links[n]? with
  | some l => if l.state = src then s.modLink n fun l => { l with state := dst, failCode := code } else s
  | none => s

/-- A retrain has passed its bound: the link trains anew (R303). -/
def retrainFails (s : State) (n : Nat) : State :=
  match s.links[n]? with
  | some l => if l.state = 5 then (((s.modLink n fun l => { l with state := 2 }).resendHeld n true).modLink n Link.fresh).parentGone n else s
  | none => s

/-- The identity exchange completes: ACTIVE, or FAILED when the peer is not the one the configuration expects (R303, R307; log entry 39). -/
def negotiated (s : State) (n : Nat) (p : Peer) (serial : Nat) : State :=
  match s.links[n]? with
  | some l =>
    if l.state ≠ 3 then s
    else
      let ok := if 6 ≤ l.group then decide (6 ≤ p.group)
        else (p.x, p.y, p.z) == s.neighbour l.group && p.group == oppositeGroup l.group && p.link / 18 == n / 18
      let s := s.modLink n fun l => { l with peer := { p with serial := serial % 2 ^ 32, valid := true } }
      if ok then
        let s := s.modLink n fun l => { l.fresh with state := 4, failCode := 0, peerHops := 255 }
        if s.time.state = 0 && s.time.role ≠ 1 then s.modTime fun t => { t with state := 1 } else s
      else s.failLink n 3
  | none => s

/-- A link of the live set stops carrying packets at once (R305). -/
def stopLink (s : State) (n : Nat) : State :=
  let s := (s.modLink n fun l => { l with disabling := true }).resendHeld n true
  (s.modLink n fun l => { l with unacked := [], txq := [], held := [] }).parentGone n

/-- The lanes of a disabled link stop (R305 steps 3 and 4). -/
def linkDown (s : State) (n : Nat) : State :=
  match s.links[n]? with
  | some l =>
    if l.disabling then
      let s := s.modLink n fun l => { l.fresh with state := 0, failCode := 6, disabling := false }
      (s.outs.filter fun o => o.cmd == .linkDisable n && o.phase == .running).foldl (fun s o => s.finish o.uid 0 0 0) s
    else s
  | none => s

/-- LINK_ENABLE (R305, R367). -/
def linkEnableEffect (s : State) (o : Out) (n : Nat) : State :=
  match s.links[n]? with
  | some l =>
    if l.state = 7 then s.finish o.uid 4 0 0
    else if l.state = 0 || l.state = 6 then (s.modLink n fun l => { l with state := 1, failCode := 0 }).finish o.uid 0 0 1
    else s.finish o.uid 0 0 l.state
  | none => s.fail o.uid 6

/-- LINK_DISABLE (R305, R367). -/
def linkDisableEffect (s : State) (o : Out) (n : Nat) : State :=
  match s.links[n]? with
  | some l =>
    if l.state = 7 then s.finish o.uid 4 0 0
    else if l.state = 0 then s.finish o.uid 0 0 0
    else if l.state = 4 || l.state = 5 then (if l.disabling then s else s.stopLink n)
    else (s.modLink n fun l => { l.fresh with state := 0, failCode := 6 }).finish o.uid 0 0 0
  | none => s.fail o.uid 6

/-- SET_LINK_SHARES (R300). -/
def linkSharesEffect (s : State) (o : Out) (c b : Nat) : State :=
  if 63 < c || 63 < b || (c = 0 && b = 0) then s.fail o.uid 6 else ({ s with shareNext := some (c, b) }).finish o.uid 0 0 0

/-- SET_FLUE_SHARES (R28). -/
def flueSharesEffect (s : State) (o : Out) (sel : Nat) (l : List Nat) : State :=
  if 1 < sel || l.any (63 < ·) || l.all (· == 0) then s.fail o.uid 6
  else ({ s with flueNext := (s.flueNext.filter fun (x : Nat × List Nat) => x.1 != sel) ++ [(sel, l)] }).finish o.uid 0 0 0

/-- Accepted shares come into force (R28, R300). -/
def applyShares (s : State) : State :=
  let s := match s.shareNext with
    | some x => { s with shareColl := x.1, shareBulk := x.2, shareNext := none }
    | none => s
  { s with
    flueCore := ((s.flueNext.find? fun x => x.1 == 0).map (·.2)).getD s.flueCore
    fluePort := ((s.flueNext.find? fun x => x.1 == 1).map (·.2)).getD s.fluePort
    flueNext := [] }

/-- A configuration gives the device a role: a new master counts no hops and has no parent; a master that becomes a follower has lost its root
(R328, R332; log entry 38). -/
def newRole (now role : Nat) (t : TimeSt) : TimeSt :=
  if role = 1 && t.role ≠ 1 then { t with role, hops := if t.state = 0 then t.hops else 0, parent := 63, within := none }
  else if role ≠ 1 && t.role = 1 then
    { t with role, hops := 127, parent := 63, within := none, state := if t.state = 2 then 3 else t.state, holdSince := if t.state = 2 then now else t.holdSince
             srcLost := false, srcLocked := false, slewing := false, srcOffset := 0 }
  else { t with role }

/-- A fabric configuration is in force: coordinates, groups, role (R306, R307, R328). -/
def setFabric (s : State) (f : FabCfg) : State :=
  { s with fab := f, links := s.links.zipIdx.map fun l => { l.1 with group := f.groups.getD l.2 7 }, time := newRole s.now (roleOf f) s.time }

/-- Every link in one of the states `l` looks for its peer again (R303, R421). -/
def redetect (s : State) (l : List Nat) : State :=
  (List.range s.links.length).foldl (fun s n =>
    if l.contains (((s.links[n]?).map (·.state)).getD 7) then (s.modLink n fun l => { l.fresh with state := 1, failCode := 0 }).parentGone n else s) s

/-- FABRIC_CONFIG: the record is in force at once, and the command ends when the flash holds it (R303, R328, R366, R452). -/
def fabricEffect (s : State) (o : Out) (a : Nat) : State :=
  if s.jobs.any fun b => b.state != 0 then s.fail o.uid 4
  else
    match s.fwRead a 64 with
    | none => s.fail o.uid 0
    | some r =>
      if !fabricInRange r then s.fail o.uid 6
      else
        let s := (s.setFabric (fabricOf r)).redetect [6]
        { s with flashOps := s.flashOps ++ [.fabric o.uid] }

/-- ADOPT as it takes effect: RESTORE's checks, the failed device's coordinate, and the wait for time and link (R421). -/
def adoptEffect (s : State) (o : Out) (p : SnapSrc) (x y z : Nat) : State :=
  let j := o.h.job
  let d := p.dests % 4
  if (s.job j).state ≠ 5 then s.fail o.uid 2
  else if d = 0 || d = 3 || (d = 2 && !s.nvmeUsable p.ctrl p.ns) then s.fail o.uid 3
  else if (s.job j).rest.isSome || s.jobs.zipIdx.any (fun b => b.2 != j && b.1.state != 0) then s.fail o.uid 4
  else if s.fab.dx ≤ x || s.fab.dy ≤ y || s.fab.dz ≤ z then s.fail o.uid 6
  else
    let moved := s.here != (x, y, z)
    let s := if moved then
        let s := (s.setFabric { s.fab with x, y, z }).redetect [4, 6]
        { s with flashOps := s.flashOps ++ [.adopt o.uid] }
      else s
    s.modJob j fun b => { b with rest := some ⟨o.uid, p.id, d, (p.bx, p.bY, p.bz), some (x, y, z), [], false, 0, false, moved⟩ }

/-- UNDELIVERABLE names a destination (R311, R322, R418). -/
def undeliverableIn (s : State) (p : Nat × Nat × Nat) : State :=
  (({ s with unreachCnt := bump64 s.unreachCnt 1 }).unreachable p s.now).buddyLost p

/-- A remote write has gone unacknowledged for 2 ms (R311). -/
def ackTimeout (s : State) (p : Nat × Nat × Nat) : State :=
  let times := s.cores.flatMap fun c => (c.dma.reqs.filter fun r => r.phase == .ack && match itemOfReq c r with
    | some i => (match s.dstDest i r.piece.dst with
      | .remote d _ => d == p
      | _ => false)
    | none => false).map (·.sentAt)
  match times with
  | [] => s
  | t :: ts =>
    let first := ts.foldl min t
    let s := s.timeTo (first + 2000000)
    (s.unreachable p (s.now - 2000000)).buddyLost p

/-- The number of another device's item among the items an arrival engine tracks (R280, R285). -/
def remoteKey (src : Nat × Nat × Nat) (item : Nat) : Nat := item + 2 ^ 40 * (1 + src.1 + 32 * src.2.1 + 1024 * src.2.2)

/-- A remote WRITE arrives for memory or for a cell of the job that holds its tag; it is acknowledged once it has landed (R285, R298). -/
def remoteWrite (s : State) (src : Nat × Nat × Nat) (word tag item itemLen sem : Nat) (d : List Byte) : State :=
  let from_ : AckTo := ⟨src, word, tag⟩
  let ack (s : State) : State := s.answerAck (some from_) 0
  let no (s : State) : State := s.answerAck (some from_) 1
  let req (member cell off : Nat) : ArrReq :=
    ⟨none, 0, remoteKey src item, member, cell, 0, off, d, itemLen, if sem < 48 then some sem else none, none, false, some from_⟩
  if bit word 63 then
    match s.jobOfTag tag with
    | some j => s.arrive j (req 0 (bits word 43 32) (bits word 21 0)) (bits word 21 0)
    | none => no s
  else
    let a := bits word 51 0
    match s.region a with
    | .host | .tiered _ => (match s.fwPut a d (some from_) with
      | some t => (let u := (t.1.countRange a d.length true 0 []).spoilRings a d.length; if t.2 then u else ack u)
      | none => no s)
    | .window t off => s.arriveWindow t (req windowMember 0 off)
    | .pcie x => ack { s with sent := .pcieOut true x d :: s.sent }
    | _ => no s

end State
end Sys2Proof.Machine
end

