-- ==== Sys2Proof/Machine/ObsCmds.lean ====
section
/-! DEFINITION. The commands and events of counters, trace buffers, captures and the Ash log (chapter 16), rings (R349), and register and
ring queries (R362). -/

namespace Sys2Proof.Machine

namespace State

/-- The sizes of the trace buffers together, with die `d`'s taken as `size`; sizes accepted and not yet in force count. -/
def traceTotal (s : State) (d size : Nat) : Nat :=
  (s.trcs.zipIdx.map fun t => if t.2 = d then size else match t.1.pending with
    | some p => p.2.2
    | none => t.1.sizeMib).foldl (· + ·) 0

/-- Largest power of two up to `n`, between 16 and 4,096 (R428). -/
def traceSize (n : Nat) : Nat := ([4096, 2048, 1024, 512, 256, 128, 64, 32].find? (· ≤ n)).getD 16

/-- A die's buffer under a configuration (R428, R429). -/
def startTrc (t : Trc) (mode post size : Nat) : Trc :=
  { t with
    mode, post, sizeMib := size, state := if mode = 0 then 0 else 1, base := t.next, trig := none, lossCount := 0, lossFirst := 0, lossLast := 0
    lossDirty := false, pending := none }

/-- TRACE_CONFIG (R429). -/
def traceConfigEffect (s : State) (o : Out) (die mode post size : Nat) : State :=
  if 5 < die then s.fail o.uid 6
  else if 3 < mode || post = 0 || 8 < post || !([16, 32, 64, 128, 256, 512, 1024, 2048, 4096].contains size) ||
      s.traceMibSetting < s.traceTotal die size then s.fail o.uid 3
  else ({ s with trcs := modAt s.trcs die fun t => if s.onTick then startTrc t mode post size else { t with pending := some (mode, post, size) } }).finish o.uid 0 0 0

/-- Trace configurations come into force, and LOSS records are rewritten (R429, R432). -/
def tickTrace (s : State) : State :=
  let s := s.trcs.zipIdx.foldl (fun s t =>
    if t.1.lossDirty then
      let s := s.trcStore t.2 (t.1.next - 1) t.1 (s.trcLoss t.1)
      { s with trcs := s.trcs.set t.2 { t.1 with lossDirty := false } }
    else s) s
  { s with trcs := s.trcs.map fun t => match t.pending with
      | some p => startTrc t p.1 p.2.1 p.2.2
      | none => t }

/-- TRACE_TRIGGER (R430). -/
def traceTriggerEffect (s : State) (o : Out) (mask : Nat) : State :=
  if 63 < mask then s.fail o.uid 6 else (s.trigger 0 0 (allDies.filter fun d => mask.testBit d)).finish o.uid 0 0 0

/-- A counter of a core begins a selection, and resets with the others of its cycle (R425, R426). -/
def selectCore (n e : Nat) (c : Core) : Core :=
  let same := decide (c.obs.resetCycle = c.cpu.cycle) && c.obs.resetMask ≠ 0
  let c := resetCounters (if same then c.obs.resetMask ||| 2 ^ n else 2 ^ n) { c with obs := { c.obs with sel := c.obs.sel.set n e } }
  c

/-- A selection of a job's cell comes into force; that of a cell without a core resets the saved counter (R424, R425). -/
def selectCell (s : State) (j : Nat) (x : Nat × Nat × Nat) : State :=
  let s := s.modJob j fun b => { b with sels := (b.sels.filter fun y => !(y.1 == x.1 && y.2.1 == x.2.1)) ++ [x] }
  let resident := s.cores.any fun c => c.job == some j && c.cell == x.1
  if resident then { s with cores := s.cores.map fun c => if c.job == some j && c.cell == x.1 then selectCore x.2.1 x.2.2 c else c }
  else s.modJob j fun b => { b with cells := modAt b.cells x.1 fun c =>
    { c with save := { c.save with obs := { c.save.obs with cnt := c.save.obs.cnt.set x.2.1 0 } } } }

/-- A device counter begins a selection and resets (R427). -/
def selectDev (s : State) (x : Nat × Nat) : State :=
  let d := s.dev
  let same := decide (d.resetTime = s.now) && d.resetMask ≠ 0
  let prev := if same then d.prev.set x.1 (d.cnt.getD x.1 0) else d.cnt
  { s with dev := { d with
    sel := d.sel.set x.1 x.2, cnt := d.cnt.set x.1 0, prev, resetMask := if same then d.resetMask ||| 2 ^ x.1 else 2 ^ x.1, resetTime := s.now } }

/-- Device counter selections come into force at a tick boundary (R427). -/
def tickSelections (s : State) : State :=
  let s := s.dev.selNext.foldl selectDev s
  { s with dev := { s.dev with selNext := [] } }

/-- COUNTER_SELECT (R353, R423-R425, R427): a device counter's selection waits for a tick boundary unless it is taken up at one. -/
def counterSelectEffect (s : State) (o : Out) (cell counter event : Nat) : State :=
  if cell = 0xFFFF then
    if 255 < counter then s.fail o.uid 6
    else
      let s := { s with dev := { s.dev with selNext := s.dev.selNext ++ [(counter, event)] } }
      (if s.onTick then s.tickSelections else s).finish o.uid 0 0 0
  else
    let j := o.h.job
    if !s.jobLive j then s.fail o.uid 2
    else if 15 < counter then s.fail o.uid 3
    else match (s.job j).cells[cell]? with
      | none => s.fail o.uid 6
      | some c => if c.lost then s.fail o.uid 2 else (s.selectCell j (cell, counter, event)).finish o.uid 0 0 0

/-- A word in the form of src names a cell of the grid, or no cell (R435, R497). -/
def capWordOk (s : State) (j w : Nat) : Bool :=
  !w.testBit 63 || bits w 43 32 = 4095 || decide (bits w 43 32 < (s.job j).cells.length)

/-- CAPTURE_SET (R434, R435, R497). -/
def captureSetEffect (s : State) (o : Out) (slot engine a : Nat) : State :=
  let j := o.h.job
  if !s.capturePresent then s.finish o.uid 4 0 0
  else if 63 < slot || (1 < engine && engine ≠ 0xFF) then s.fail o.uid 6
  else if !s.jobLive j then s.fail o.uid 2
  else if ((s.cap? j slot).map fun c => c.phase == .running) == some true then s.fail o.uid 4
  else match s.fwRead a 64 with
    | none => s.fail o.uid 0
    | some raw =>
      let dst := fieldAt raw 16 8
      let inDst := match s.region dst with
        | .tiered _ => true
        | .host => true
        | _ => false
      let cell := fieldAt raw 38 2
      if fieldAt raw 8 8 = 0 || 2 ^ 32 < fieldAt raw 8 8 || dst % 64 ≠ 0 || !inDst || (cell ≠ 0xFFFF && (s.job j).cells.length ≤ cell) ||
          !s.capWordOk j (fieldAt raw 0 8) || !s.capWordOk j (fieldAt raw 56 8) then s.fail o.uid 6
      else
        let c : CapSlot := ⟨slot, engine, raw, .armed, 0, 0, 0, if engine < 2 then engine else 0, 0, 0, []⟩
        (s.modJob j fun b => { b with caps := (b.caps.filter fun x => x.slot != slot) ++ [c] }).finish o.uid 0 0 0

/-- CAPTURE_CLEAR (R434): the reply waits for a running capture. -/
def captureClearEffect (s : State) (o : Out) (slot : Nat) : State :=
  let j := o.h.job
  if 63 < slot then s.fail o.uid 6
  else if !s.jobLive j then s.fail o.uid 2
  else match s.cap? j slot with
    | none => s.fail o.uid 3
    | some c =>
      if c.phase == .running then s
      else (s.modJob j fun b => { b with caps := b.caps.filter fun x => x.slot != slot }).finish o.uid 0 0 0

/-- TRACE_RECORD_WRITE (R432): the writer of a die takes the oldest record of a core's queue; a run of drops is queued as one LOSS record. -/
def writeTrace (s : State) (d n : Nat) : State :=
  match s.core? n with
  | some c =>
    match c.obs.queue with
    | r :: q =>
      if dieOf c.phys = d then
        let s := s.modCore n fun c =>
          let loss := traceRec c.obs.runLast 6 s.time.valid n 0 [(16, 4, c.obs.run), (24, 8, c.obs.runFirst)]
          { c with obs := { c.obs with queue := if c.obs.run = 0 then q else q ++ [loss], run := 0 } }
        s.trace d r
      else s
    | [] => s
  | none => s

/-- The next record of the Ash log goes to flash: its sector is erased before its first record (R439). -/
def ashToFlash (s : State) : State :=
  let q := s.ash.flashed + 1
  if s.ash.next ≤ q then s
  else
    let s1 := { s with ash := { s.ash with flashed := q } }
    match s.ash.mirror.find? fun r => r.1 == q with
    | some r =>
      let a := flashAsh + 512 * (q % 4096)
      (if s.flashErased a 512 then s1 else s1.flashErase a 512).flashWrite a r.2
    | none => s1

/-- Address of the slot of record `q` in the heart view (R439). -/
def viewAddr (q : Nat) : Nat := 0x0C0F00000000 + 512 * (q % 4096)

/-- Bytes are a valid Ash record (R443). -/
def ashValid (r : List Byte) : Bool := fieldAt r 508 4 == 0x4153484D && fieldAt r 504 4 == crc32 (r.take 504)

/-- Sequence numbers of the valid records of the view, but those of a list of slots. -/
def viewOldest (s : State) : Nat :=
  let l := (List.range 4096).filterMap fun k =>
    let r := s.mem.read (viewAddr k) 512
    if fieldAt r 508 4 = 0x4153484D then some (fieldAt r 0 8) else none
  l.foldl (fun m q => if m = 0 then q else min m q) 0

/-- The next record of the Ash log goes to the heart view (R439). -/
def ashToView (s : State) : State :=
  let q := s.ash.viewed + 1
  if s.ash.next ≤ q || !s.memReg.mapValid then s
  else
    let s1 := { s with ash := { s.ash with viewed := q } }
    match s.ash.mirror.find? fun r => r.1 == q with
    | some r =>
      let old := s.mem.readLE (viewAddr q) 8
      let s2 := { s1 with mem := s.mem.write (viewAddr q) r.2 }
      if s.ash.oldest = 0 then { s2 with ash := { s2.ash with oldest := q } }
      else if old = s.ash.oldest then { s2 with ash := { s2.ash with oldest := s2.viewOldest } }
      else s2
    | none => s1

/-- ASH_CLEAR (R375, R444, R445): a correct authorisation starts the flash work. -/
def ashClearEffect (s : State) (o : Out) (auth : List Byte) : State :=
  if auth.length < 128 then s.authFails o 0 1
  else
    let c := s.authCheck 1 none auth
    if c ≠ 0 then s.authFails o (fieldAt auth 16 4) c
    else
      let last := min (fieldAt auth 8 8) (s.ash.next - 1)
      { s.freshNonce with flashOps := s.flashOps ++ [.ashClear o.uid last] }

/-- A flash sector of the ASH region after the records up to `last` are cleared: erased whole, or valid marks programmed to 0 (R445). -/
def clearAshSector (s : State) (last k : Nat) : State :=
  let base := flashAsh + 65536 * k
  let slots := (List.range 128).map fun i => base + 512 * i
  let has (a : Nat) : Bool := fieldAt (s.flashRead (a + 508) 4) 0 4 == 0x4153484D
  let old (a : Nat) : Bool := fieldAt (s.flashRead a 8) 0 8 ≤ last
  let marked := slots.filter has
  if marked.isEmpty || !(marked.any old) then s
  else if marked.all old then s.flashErase base 65536
  else (marked.filter old).foldl (fun s a => s.flashWrite (a + 508) [0, 0, 0, 0]) s

/-- The clear is done: mirror, view and flash, then the ASH_CLEARED record and the reply (R445, R494). -/
def ashCleared (s : State) (u last : Nat) : State :=
  let ring := match s.out? u with
    | some o => o.h.ring
    | none => 0
  let first := s.ash.mirror.foldl (fun m r => if m = 0 then r.1 else min m r.1) s.ash.oldest
  let slot := fieldAt (s.imageHeader flashActive) 9 1
  let s := (List.range 32).foldl (fun s k => s.clearAshSector last k) s
  let s := (List.range 4096).foldl (fun s k =>
    if s.mem.readLE (viewAddr k) 8 ≤ last then { s with mem := s.mem.clear (viewAddr k) 512 } else s) s
  let s := { s with ash := { s.ash with
    mirror := s.ash.mirror.filter fun r => last < r.1, oldest := s.viewOldest, flashed := max s.ash.flashed last, viewed := max s.ash.viewed last } }
  let s := s.ashWrite 9 5 ring [(32, 8, if first = 0 then last else min first last), (40, 8, last), (48, 1, slot)] [regAshLast, regAshOldest]
  s.finish u 0 0 last

/-- Byte ranges of a submission and a completion ring (R345). -/
def ringRanges (r : Ring) : List (Nat × Nat) := [(r.subBase, 64 + 64 * 2 ^ r.s), (r.cmpBase, 64 + 32 * 2 ^ r.c)]

/-- Two byte ranges share a byte. -/
def rangesMeet (a b : Nat × Nat) : Bool := a.1 < b.1 + b.2 && b.1 < a.1 + a.2

/-- A byte range lies in the host region or in mapped blocks of the tiered range (R349). -/
def rangeBacked (s : State) (r : Nat × Nat) : Bool :=
  let ok (a : Nat) : Bool := match s.region a with
    | .host => true
    | .tiered b => s.mapped b
    | _ => false
  (r.1 :: (((List.range (r.2 / 65536 + 1)).map fun i => (r.1 / 65536 + i + 1) * 65536).filter fun x => x < r.1 + r.2)).all ok

/-- RING_CREATE (R349). -/
def ringCreateEffect (s : State) (o : Out) (n sz c subBase cmpBase : Nat) : State :=
  let r : Ring := ⟨n, sz, c, subBase, cmpBase, 0, 0, 0, [], false, true, false, [], false⟩
  let mine := ringRanges r
  let first : Nat × Nat := (0x080000000000, 131072)
  if 63 < n then s.fail o.uid 6
  else if n = 0 || n = 62 || n = 63 then s.fail o.uid 3
  else if (s.ring? n).isSome then s.fail o.uid 4
  else if sz < 6 || 16 < sz || c < 6 || 16 < c || subBase % 64 ≠ 0 || cmpBase % 64 ≠ 0 || !(mine.all s.rangeBacked) ||
      mine.any (rangesMeet first) || rangesMeet (subBase, 64 + 64 * 2 ^ sz) (cmpBase, 64 + 32 * 2 ^ c) ||
      (s.rings.any fun x => x.num < 62 && (ringRanges x).any fun y => mine.any (rangesMeet y)) then s.fail o.uid 6
  else
    let s := (s.tryWrite (subBase + 8) (leBytes 8 0)).tryWrite cmpBase (leBytes 8 0)
    ({ s with rings := s.rings ++ [r] }).finish o.uid 0 0 0

/-- RING_DELETE (R349): take-up stops at once, and the reply follows the last reply of the ring's other commands. -/
def ringDeleteEffect (s : State) (o : Out) (n : Nat) : State :=
  if 63 < n then s.fail o.uid 6
  else if n = 0 || n = 62 || n = 63 || (s.ring? n).isNone then s.fail o.uid 3
  else
    let s := { s with waitq := s.waitq.filter fun w => w.h.ring != n }
    (s.modRing n fun r => { r with closing := true }).dropClosed

/-- REG_READ (R362, R497): aligned 64-bit words, read one after another. -/
def regReadEffect (s : State) (o : Out) (a n buf : Nat) : State :=
  if n = 0 || 64 < n || 2 ^ 32 < a + 8 * n then s.fail o.uid 6
  else
    let x := s.readWords a n
    x.1.answer o buf (x.2.flatMap (leBytes 8)) (x.2.headD 0)

/-- TIME_QUERY (R362). -/
def timeQueryEffect (s : State) (o : Out) : State := s.finish o.uid 0 0 (s.regVal regTimeNow)

/-- RING_QUERY (R362, R497). -/
def ringQueryEffect (s : State) (o : Out) (n : Nat) : State :=
  if 63 < n then s.fail o.uid 6
  else match s.ring? n with
    | some r => s.finish o.uid 0 0 r.subCons
    | none => s.fail o.uid 3

/-- A register is read at its address by something that the value answers (R8, R426, R447). -/
def readRegister (s : State) (a : Nat) : State := { s.regTouch a with sent := .value (leBytes 8 (s.regVal a)) :: s.sent }

end State
end Sys2Proof.Machine
end

