-- ==== Sys2Proof/Machine/FwOps.lean ====
section
/-! DEFINITION. The firmware's own commands: staging and confirming an image (R457-R459, R462), fence and Ash maintenance (R375), DEVICE_RESET,
POWER_LIMIT, and the completion of flash operations (R376, R448).  Log entry 41. -/

namespace Sys2Proof.Machine

/-- What a phase of FW_STAGE answers: status, reason, result (R457, R459). -/
structure StageRes where
  st : Nat
  rs : Nat
  result : Nat
  deriving DecidableEq, Repr

namespace State

/-- Registers of a BOOT record's snapshot (R467). -/
def fwRegs : List Nat := [0x2500000, 0x2500008, 0x2500010, 0x2500018, 0x2500020, 0x2500028]

/-- A BOOT Ash record (R467). -/
def bootRecord (s : State) (event check : Nat) : State :=
  s.ashPut 0xB 5 0 0 [(32, 1, event), (33, 4, s.fw.actVersion), (37, 4, s.fw.prevVersion), (41, 1, check)] fwRegs

/-- Changes the firmware record. -/
def modFw (s : State) (f : Fw → Fw) : State := { s with fw := f s.fw }

/-- body_len of the staged header (R453). -/
def stagedLen (s : State) : Nat := fieldAt (s.imageHeader flashStaging) 16 4

/-- FW_STAGE phase 0 (R457, R459). -/
def stageHeader (s : State) (off : Nat) (h : List Byte) : State × StageRes :=
  if off ≠ 0 || h.length ≠ 512 then (s, ⟨3, 3, 0⟩)
  else
    let c := s.headerCheck h
    if c ≠ 0 then (s.modFw fun f => { f with check := c, staging := 3 }, ⟨9, 0, c⟩)
    else
      let s := (s.flashErase flashStaging (4096 + fieldAt h 16 4)).flashWrite flashStaging h
      (s.modFw fun f => { f with session := true, pages := [], stgVersion := fieldAt h 12 4, staging := 1 }, ⟨0, 0, fieldAt h 12 4⟩)

/-- FW_STAGE phase 1 (R457, R459): `most` is the longest chunk. -/
def stageBody (s : State) (off : Nat) (d : List Byte) (most : Nat) : State × StageRes :=
  let n := d.length
  let pages := (List.range (ceilDiv n 256)).map (· + off / 256)
  if !s.fw.session then (s, ⟨3, 2, 0⟩)
  else if off % 256 ≠ 0 || most < n || (n % 256 ≠ 0 && off + n ≠ s.stagedLen) then (s, ⟨3, 3, 0⟩)
  else if s.stagedLen < off + n then (s, ⟨3, 3, 0⟩)
  else if pages.any fun p => s.fw.pages.contains p then (s, ⟨3, 2, 0⟩)
  else
    let s := (s.flashWrite (flashStaging + 4096 + off) d).modFw fun f => { f with pages := pages ++ f.pages }
    (s, ⟨0, 0, s.fw.pages.length⟩)

/-- FW_STAGE phase 2 but for the ready mark (R457, R459). -/
def stageFinish (s : State) : State × StageRes :=
  if !s.fw.session || s.fw.pages.length < ceilDiv s.stagedLen 256 then (s, ⟨3, 2, 0⟩)
  else if s.bodyPasses flashStaging then (s.modFw fun f => { f with session := false }, ⟨0, 0, s.fw.stgVersion⟩)
  else (s.modFw fun f => { f with session := false, check := 9, staging := 3 }, ⟨9, 0, 9⟩)

/-- The ready mark, written last of all (R458). -/
def markReady (s : State) : State :=
  (s.flashWrite (flashStaging + 0x200) (readyMark s.fw.stgVersion s.stagedLen)).modFw fun f => { f with staging := 2 }

/-- A flash operation belongs to FW_STAGE. -/
def stageOp : FlashOp → Bool
  | .stageHeader _ _ | .stageBody _ _ | .stageFinish _ _ _ => true
  | _ => false

/-- An FW_STAGE runs: it fails at once, or ends with its flash operation (R457, R459). -/
def runStage (s : State) (o : Out) (phase off len src : Nat) (body : List Byte) : State :=
  let put (r : State × StageRes) (f : FlashOp) : State :=
    if r.2.st = 0 || phase = 2 && r.2.st = 9 then { r.1 with flashOps := r.1.flashOps ++ [f] } else r.1.finish o.uid r.2.st r.2.rs r.2.result
  let data : Option (List Byte) := if o.h.ring = 63 then some (bytesAt body 0 (min len 3840)) else s.fwRead src len
  if phase = 0 then
    if len ≠ 512 || off ≠ 0 then s.fail o.uid 3
    else match data with
      | some d => let r := s.stageHeader off d; put r (.stageHeader o.uid r.2.result)
      | none => s.fail o.uid 0
  else if phase = 1 then
    if !s.fw.session then s.fail o.uid 2
    else if (if o.h.ring = 63 then 3840 else 1048576) < len then s.fail o.uid 3
    else match data with
      | some d => let r := s.stageBody off d 1048576; put r (.stageBody o.uid r.2.result)
      | none => s.fail o.uid 0
  else if phase = 2 then
    let r := s.stageFinish
    put r (.stageFinish o.uid r.2.result (r.2.st == 0))
  else s.fail o.uid 3

/-- The FW_STAGE commands that wait run, in take-up order, while none is under way (R459). -/
def nextStage : Nat → State → State
  | 0, s => s
  | f + 1, s =>
    if s.flashOps.any stageOp then s
    else
      let l := s.outs.filter fun o => o.phase == .running && match o.cmd with
        | .fwStage _ _ _ _ _ => true
        | _ => false
      match l with
      | o :: _ => (match o.cmd with
        | .fwStage p off len src body => nextStage f (s.runStage o p off len src body)
        | _ => s)
      | [] => s

/-- FW_STAGE: one at a time, in take-up order (R459). -/
def fwStageEffect (s : State) : State := nextStage (s.outs.length + 1) s

/-- FW_CONFIRM (R462): the confirm watchdog is disarmed at once. -/
def fwConfirmEffect (s : State) (o : Out) : State :=
  if s.fw.trial then { s.modFw fun f => { f with confirmDog := none } with flashOps := s.flashOps ++ [.confirm o.uid] } else s.finish o.uid 0 0 0

/-- The boot state is CONFIRMED, and the fuses that the header's flags name are blown, but for its own slot's (R462, R466, R467). -/
def confirmed (s : State) (u : Nat) : State :=
  let h := s.imageHeader flashActive
  let own := fieldAt h 9 1
  let s := (s.putBoot 0 0 0 0 s.fw.bootCount).modFw fun f => { f with trial := false, attempts := 0, fallback := false }
  let s := s.bootRecord 3 0
  let s := [0, 1].foldl (fun s k =>
    if (fieldAt h 10 1).testBit k && k != own && !(s.fuses.revoked.testBit k) then
      ({ s with fuses := { s.fuses with revoked := s.fuses.revoked ||| 2 ^ k } }).bootRecord 9 0
    else s) s
  s.finish u 0 0 0

/-- FENCE_CLEAR (R375, R444, R497): a correct authorisation starts the flash work. -/
def fenceClearEffect (s : State) (o : Out) (phys : Nat) (auth : List Byte) : State :=
  if 640 ≤ phys && phys ≠ 0xFFFF then s.fail o.uid 6
  else if auth.length < 128 then s.authFails o 0 1
  else
    let c := s.authCheck 2 (some phys) auth
    if c ≠ 0 then s.authFails o (fieldAt auth 16 4) c else { s.freshNonce with flashOps := s.flashOps ++ [.fenceClear o.uid phys] }

/-- Entries of the fence list are cleared; the result counts them (R21, R362). -/
def fencesCleared (s : State) (u phys : Nat) : State :=
  let hit (p : Nat) : Bool := phys = 0xFFFF || p == phys
  ({ s with fenceList := s.fenceList.filter fun p => !hit p }).finish u 0 0 (s.fenceList.filter hit).length

/-- Bytes 0-63 of the settings record are rewritten with the fabric configuration in force (R366, R421, R452). -/
def putFabric (s : State) : State := s.writeCopy 1 256 248 (fabricBytes s.fab ++ s.settingsRecord.drop 64)

/-- DEVICE_RESET (R362, R472): the final reply comes before the reset. -/
def deviceResetEffect (s : State) (o : Out) (force : Nat) : State :=
  if (s.jobs.any fun b => b.state != 0) && force = 0 then s.fail o.uid 4 else (s.finish o.uid 0 0 0).beginReset 2

/-- The limit that POWER_LIMIT puts in force (R362, R474). -/
def clampLimit (s : State) (w : Nat) : Nat := max 600 (min w (envelopeOf s.fuses.tk9620))

/-- POWER_LIMIT (R362, R474). -/
def powerLimitEffect (s : State) (o : Out) (w : Nat) : State :=
  ({ s with power := { s.power with limitNext := some (s.clampLimit w) } }).finish o.uid 0 0 (s.clampLimit w)

/-- FLASH_OPERATION_COMPLETE (R376, R448): the oldest flash operation completes. -/
def flashDone (s : State) : State :=
  match s.flashOps with
  | [] => s
  | f :: rest =>
    let s := { s with flashOps := rest }
    match f with
    | .stageHeader u v => (s.finish u 0 0 v).fwStageEffect
    | .stageBody u n => (s.finish u 0 0 n).fwStageEffect
    | .stageFinish u v ok => (if ok then s.markReady.finish u 0 0 v else s.finish u 9 0 9).fwStageEffect
    | .confirm u => s.confirmed u
    | .ashClear u last => s.ashCleared u last
    | .fenceClear u phys => s.fencesCleared u phys
    | .fabric u => s.putFabric.finish u 0 0 0
    | .adopt _ => s.putFabric

end State
end Sys2Proof.Machine
end

