-- ==== Sys2Proof/Machine/PowerOps.lean ====
section
/-! DEFINITION. Power samples and limit, the Damper's demands, sensors, supply rails, and the reference inputs (R472-R483, R491).  Log
entry 42. -/

namespace Sys2Proof.Machine
namespace State

/-- Changes the power record. -/
def modPower (s : State) (f : Power → Power) : State := { s with power := f s.power }

/-- Changes a demand of the Damper: the clocks are brought up to this moment first (R477; log entry 46). -/
def modDemand (s : State) (f : Power → Power) : State := s.markClocks.modPower f

/-- Registers of a DAMPER record's snapshot (R481). -/
def damperRegs : List Nat := [0x2400010, 0x2400008, 0x2400000, 0x2400018, 0x2400020, 0x2400028, 0x2400030, regTimeNow]

/-- A DAMPER Ash record (R481). -/
def damperRecord (s : State) (die unit event mv : Nat) : State := s.ashWrite 0xA die unit [(32, 1, event), (33, 2, mv)] damperRegs

/-- unmet clears when PWR_NOW has come down to the limit (R475). -/
def clearUnmet (s : State) : State :=
  if s.powerNow ≤ s.power.limit then s.modPower fun p => { p with unmet := false, runsOver := 0 } else s

/-- A sample of the package power (R474). -/
def samplePower (s : State) (w : Nat) : State := (s.modPower fun p => { p with samples := (w :: p.samples).take 100 }).clearUnmet

/-- The Damper's power loop (R475): unmet after 100 runs, 10 ms, at level 15. -/
def runPowerLoop (s : State) : State :=
  let p := s.power
  if p.limit < s.powerNow then
    if p.level < 15 then s.modDemand fun p => { p with level := p.level + 1, runsOver := 0 }
    else if p.runsOver + 1 = 100 && !p.unmet then ((s.modPower fun p => { p with runsOver := 100, unmet := true }).damperRecord 5 0xFF 3 0)
    else s.modPower fun p => { p with runsOver := min 100 (p.runsOver + 1) }
  else
    let s := s.clearUnmet
    if 100 * s.powerNow < 97 * p.limit then s.modDemand fun p => { p with level := p.level - 1 } else s

/-- A limit that POWER_LIMIT has set takes effect (R474). -/
def applyLimit (s : State) : State := match s.power.limitNext with
  | some w => (s.modPower fun p => { p with limit := w, limitNext := none }).clearUnmet
  | none => s

/-- The die code of the die that holds a sensor (R478). -/
def sensorDie (k : Nat) : Nat := if k < 64 then k / 16 else if k < 68 then 4 else 5

/-- The sensors are sampled; one at 95.0 °C is device-fatal (R399, R478). -/
def sampleSensors (s : State) (l : List Int) : State :=
  if l.length ≠ 72 then s
  else
    let s := s.modPower fun p => { p with temps := l }
    match l.findIdx? fun (t : Int) => decide (760 ≤ t) with
    | some k => s.fatal 7 (sensorDie k) k 0xFF 4
    | none => s

/-- The hottest of the port dies' sensors. -/
def portTemp (s : State) : Int := max (s.hottest 64 4) (s.hottest 68 4)

/-- A die's thermal level rises or falls by one, as its sensors and the port dies' have it (R478). -/
def stepThermal (s : State) (d : Nat) (rise : Bool) : State :=
  let own := s.hottest (16 * d) 16
  let old := s.power.thermal.getD d 0
  if 4 ≤ d then s
  else if rise then
    if 720 ≤ own || 720 ≤ s.portTemp then
      let s := s.modDemand fun p => { p with thermal := p.thermal.set d (min 15 (old + 1)) }
      if old = 0 then s.damperRecord d (if 720 ≤ own then d else if 720 ≤ s.hottest 64 4 then 4 else 5) 2 0 else s
    else s
  else if own ≤ 704 && s.portTemp ≤ 704 then s.modDemand fun p => { p with thermal := p.thermal.set d (old - 1) }
  else s

/-- Nominal level in mV of a monitored rail (R469). -/
def railNominal (r : Nat) : Nat := [750, 750, 750, 750, 850, 800, 800, 900, 1050, 750, 1100].getD r 0

/-- Compute dies that a rail's dip acts on (R479). -/
def railDies (r : Nat) : List Nat := if r < 4 then [r] else [0, 1, 2, 3]

/-- A monitored rail falls below warning and stays above reset (R470, R479). -/
def supplyDips (s : State) (r mv : Nat) : State :=
  if 11 ≤ r || 95 * railNominal r ≤ 100 * mv || 100 * mv ≤ 90 * railNominal r then s
  else if s.power.warn.testBit r then s.modPower fun p => { p with lowest := modAt p.lowest r fun m => min m mv }
  else
    let s := s.modDemand fun p => { p with
      warn := p.warn ||| 2 ^ r, dipped := p.dipped ||| 2 ^ r, dipCount := bump64 p.dipCount 1, lowest := p.lowest.set r mv
      dip := p.dip.zipIdx.map fun x => if (railDies r).contains x.2 then 8 else x.1 }
    s.damperRecord (if r < 4 then r else 5) r 1 mv

/-- A rail returns above warning (R479). -/
def railReturns (s : State) (r : Nat) : State :=
  if s.power.warn.testBit r then s.modPower fun p => { p with warn := p.warn - 2 ^ r } else s

/-- The dip level of a die falls by one step, no rail that acts on it being below warning (R479). -/
def decayDip (s : State) (d : Nat) : State :=
  if (List.range 11).any fun r => s.power.warn.testBit r && (railDies r).contains d then s
  else s.modDemand fun p => { p with dip := modAt p.dip d fun x => x - 1 }

/-- The die on which a rail's fault is detected: the compute die it supplies, else port die E with the always-on domain (R473, R493). -/
def railDie (r : Nat) : Nat := if r < 4 then r else 5

/-- A monitored rail reaches reset level (R472, R473). -/
def brownOut (s : State) (r : Nat) : State := if 11 ≤ r then s else s.fatal 5 (railDie r) 0xFFFFFFFF r 3

/-- A monitored rail is above its overvoltage threshold (R473). -/
def overVolt (s : State) (r : Nat) : State := if 11 ≤ r then s else s.fatal 6 (railDie r) 0xFFFFFFFF r 4

/-- PWR_OK falls: a brown-out while RESET_N is high (R472, R473). -/
def pwrOkFalls (s : State) : State :=
  let s := { s with pins := { s.pins with pwrOk := false } }
  if s.pins.resetN then s.fatal 5 5 0xFFFFFFFF 0xFF 3 else s

/-- RESET_N has been low for 1 µs, or rises (R472). -/
def resetPin (s : State) (low : Bool) : State :=
  let s := { s with pins := { s.pins with resetN := !low } }
  if low then s.beginReset 1 else s

/-- REF_CLK is lost (R483). -/
def refLost (s : State) : State :=
  let t := s.fatal 8 5 0xFFFFFFFF 0xFF 4
  { t with pins := { t.pins with refClk := false } }

/-- A link reference is lost: that die's links leave ACTIVE (R304, R483). -/
def linkRefLost (s : State) (east : Bool) : State :=
  let s := { s with pins := if east then { s.pins with lrefE := false } else { s.pins with lrefW := false } }
  ((List.range 18).map fun k => if east then k + 18 else k).foldl (fun s n =>
    if (s.links[n]?).map (·.state) = some 4 then s.retrain n else s) s

/-- The PCIe reference is lost: the root port's link goes down, and NVMe operations fail (R418, R483). -/
def pcieRefLost (s : State) : State :=
  let s := { s with pins := { s.pins with pcieRef := false }, pcie := ⟨false, 0⟩ }
  (List.range 8).foldl (fun s j => s.nvmeDone j false) s

/-- A time input is lost (R331, R483). -/
def timeRefLost (s : State) : State :=
  let s := { s with pins := { s.pins with tref := false } }
  if s.fab.source = 1 then s.loseSource else s

end State
end Sys2Proof.Machine
end

