-- ==== Sys2Proof/Machine/BootOps.lean ====
section
/-! DEFINITION. Kindling's boot (R456), the update (R460), fallback (R463), recovery (R464, R465), the start of the firmware with the memory it
trains (R216-R218, R231-R234), and the watchdogs (R461).  Log entries 41 and 43. -/

namespace Sys2Proof.Machine

/-- A module that the terms of R232 allow, on a channel of the grade. -/
def moduleOk (tk9620 : Bool) (m : Module) : Bool :=
  decide (m.ch < 16) && (!tk9620 || decide (m.ch % 8 < 6)) && [32, 64, 96, 128, 192, 256].contains m.gib && (m.ranks == 1 || m.ranks == 2) &&
    decide (1 ≤ m.rate) && decide (m.rate ≤ 4)

/-- Least of a list of numbers, 0 for none. -/
def leastOf : List Nat → Nat
  | [] => 0
  | x :: xs => xs.foldl min x

namespace State

/-- The channels and stacks that have trained, and the memory registers they give (R216-R218, R231-R234). -/
def trainMemory (s : State) (b : BootEnv) : State :=
  let mods := (List.range 16).filterMap fun k => b.modules.find? fun m => m.ch == k && moduleOk s.fuses.tk9620 m
  let n := mods.length
  let gib := leastOf (mods.map fun (m : Module) => m.gib)
  let total := n * gib * 1024
  let want := s.hostGibSetting
  let host := min want (n * gib)
  let chans := (List.range 16).map fun k => match mods.find? fun m => m.ch == k with
    | some m => (⟨true, true, m.ranks, m.gib, 0⟩ : Chan)
    | none => ⟨false, false, 0, 0, 0⟩
  let hbms := s.memReg.hbms.zipIdx.map fun k =>
    let up := b.hbms.testBit k.2 && !k.1.broken
    (⟨up, !up, 0, false⟩ : Stack)
  let heart := (hbms.filter (·.inUse)).length * s.stackGib * 1024
  let trace := s.traceMibSetting
  let held := 1027 + 20 * s.lcns + trace
  let s := { s with memReg := { s.memReg with
    mapValid := true, hostGib := host, tieredMib := heart - held + (total - 1024 * host), heartUsable := heart, rate := leastOf (mods.map fun (m : Module) => m.rate),
    chanGib := gib, baseTotal := total, baseValid := true, fwHeld := held, fwHeldValid := true, traceMib := trace, chans, hbms } }
  let s := if host < want then s.bootRecord 10 0 else s
  { s with trcs := s.trcs.map fun t => startTrc t 1 8 (traceSize (trace / 6)) }

/-- Rings after a boot: ring 0 where a host region exists, and the rings of the peers and of the management port (R344, R345). -/
def startRings (s : State) : State :=
  let base := 0x080000000000
  let zero : Ring := ⟨0, 8, 10, base, base + 0x10000, 0, 0, 0, [], false, false, false, [], false⟩
  let rings := (if s.memReg.hostGib = 0 then [] else [zero]) ++
    [⟨62, 8, 8, 0, 0, 0, 0, 0, [], false, false, false, [], false⟩, ⟨63, 8, 8, 0, 0, 0, 0, 0, [], false, false, false, [], false⟩]
  { s with rings, mem := (s.mem.clear base 64).clear (base + 0x10000) 64 }

/-- Ash records that the boot flash holds (R439). -/
def flashRecords (s : State) : List (List Byte) :=
  (List.range 4096).filterMap fun k =>
    if s.flashErased (flashAsh + 512 * k) 512 then none
    else
      let r := s.flashRead (flashAsh + 512 * k) 512
      if ashValid r then some r else none

/-- After a power-on reset numbering resumes 4,096 above the largest number in flash (R439). -/
def resumeAsh (s : State) : State :=
  if s.fw.cause ≠ 0 then s
  else
    let top := (s.flashRecords.map fun r => fieldAt r 0 8).foldl max 0
    let next := if top = 0 then 1 else top + 4096
    { s with ash := { s.ash with next, flashed := next - 1, viewed := next - 1 } }

/-- The heart view is rebuilt from the mirror, or from flash after a power-on reset (R439). -/
def rebuildView (s : State) : State :=
  let l := if s.fw.cause = 0 then s.flashRecords ++ s.ash.mirror.map (·.2) else s.ash.mirror.map (·.2)
  let s := l.foldl (fun s r => { s with mem := s.mem.write (viewAddr (fieldAt r 0 8)) r }) s
  { s with ash := { s.ash with viewed := s.ash.next - 1, oldest := leastOf (l.map fun r => fieldAt r 0 8) } }

/-- Job context records and grid maps of empty contexts are in place (R262, R369). -/
def startContexts (s : State) : State := (List.range 8).foldl (fun s j => (s.writeCtx j).writeMap j) s

/-- The controllers of the settings that answer (R414). -/
def nvmePresent (s : State) (answer : Nat) : Nat :=
  bitsOf ((List.range 4).map fun k => answer.testBit k && fieldAt s.settings (92 + 2 * k) 2 ≠ 0xFFFF)

/-- Steps 8 to 11 of R456: the boot is counted, the firmware starts at w0, and memory, links and time are brought up. -/
def startFirmware (s : State) (b : BootEnv) : State :=
  let boot := s.bootState
  let s := s.modFw fun f => { f with bootCount := wrapAdd 32 (fieldAt boot 12 4) 1, attempts := min 3 (f.attempts + 1) }
  let s := s.putBoot (b2n s.fw.trial) s.fw.attempts (b2n s.fw.fallback) 0 s.fw.bootCount
  let s := s.bootRecord 1 0
  let s := s.modFw fun f => { f with
    stage := 3, startDog := some (s.now + 30000000000), confirmDog := if f.trial then some (s.now + 600000000000) else none, marked := false }
  let s := ((s.setFabric s.fabricSetting).trainMemory b).startRings
  let s := s.startContexts.rebuildView
  let s := { s with links := s.links.map fun l => if l.state = 0 then { l with state := 1 } else l
                    pcie := ⟨true, s.nvmePresent b.nvme⟩, recovery := Recovery.none, pins := { s.pins with faultN := true } }
  s

/-- Recovery is entered: mode 1 timed or 2 untimed, the cause of ANNOUNCE, and where the boot goes on (R464, R465, R467). -/
def enterRecovery (s : State) (mode cause after : Nat) : State :=
  let s := s.modFw fun f => { f with stage := 2 }
  let s := { s with recovery := { Recovery.none with mode, cause, after }
                    pins := { s.pins with faultN := mode != 2 } }
  s.bootRecord 5 s.fw.check

/-- A copy of an image region, repeated once when it fails to verify; of the copies of this boot, the first `k` fail (R460). -/
def copyImage (s : State) (src dst k : Nat) : State × Nat × Bool :=
  if 2 ≤ k then (s.flashErase dst 0x02000000, k - 2, false)
  else
    let t := s.flashCopy src dst
    (t, 0, t.verifyImage dst = 0)

/-- FW_ACTIVE and FW_PREVIOUS from the headers of their regions (R468). -/
def readImages (s : State) : State :=
  let a := s.imageHeader flashActive
  let p := s.imageHeader flashPrevious
  let ok (base : Nat) : Bool := s.verifyImage base = 0
  let none_ (base : Nat) : Bool := s.flashErased base 512
  s.modFw fun f => { f with
    actVersion := if none_ flashActive then 0 else fieldAt a 12 4, actSlot := if none_ flashActive then 0 else fieldAt a 9 1 % 2
    actVerified := ok flashActive
    prevVersion := if none_ flashPrevious then 0 else fieldAt p 12 4, prevSlot := if none_ flashPrevious then 0 else fieldAt p 9 1 % 2
    prevVerified := ok flashPrevious }

/-- A copy has failed twice: an Ash record and untimed recovery (R460, R463). -/
def copyFailed (s : State) : State := (s.bootRecord 8 s.fw.check).enterRecovery 2 2 4

/-- Step 7 of R456: ACTIVE verifies and the firmware starts, or timed recovery comes before the fallback. -/
def bootVerify (s : State) (b : BootEnv) : State :=
  let c := s.verifyImage flashActive
  if c ≠ 0 then (s.modFw fun f => { f with check := c }).enterRecovery 1 2 1 else s.startFirmware b

/-- Kindling falls back (R463). -/
def bootFallback (s : State) (b : BootEnv) (k : Nat) : State :=
  if !s.fw.fallback && s.verifyImage flashPrevious = 0 then
    let r := s.copyImage flashPrevious flashActive k
    if r.2.2 then
      let s := r.1.readImages.modFw fun f => { f with trial := true, attempts := 0, fallback := true }
      ((s.putBoot 1 0 1 0 s.fw.bootCount).bootRecord 4 0).bootVerify b
    else r.1.readImages.copyFailed
  else s.enterRecovery 2 4 4

/-- Step 6 of R456. -/
def bootAttempts (s : State) (b : BootEnv) (k : Nat) : State := if s.fw.attempts = 3 then s.bootFallback b k else s.bootVerify b

/-- Step 5 of R456. -/
def bootCause (s : State) (b : BootEnv) (k : Nat) : State := if s.fw.cause = 5 then s.enterRecovery 1 1 0 else s.bootAttempts b k

/-- Steps 3 to 5 of the update: STAGING goes into ACTIVE (R460). -/
def updateActive (s : State) (b : BootEnv) (k : Nat) : State :=
  let s := s.putBoot (b2n s.fw.trial) s.fw.attempts (b2n s.fw.fallback) 2 s.fw.bootCount
  let r := s.copyImage flashStaging flashActive k
  let s := r.1.readImages
  if r.2.2 then
    let s := s.modFw fun f => { f with trial := true, attempts := 0, fallback := false, staging := 0 }
    let s := (s.putBoot 1 0 0 0 s.fw.bootCount).flashErase flashStaging 65536
    (s.bootRecord 2 0).bootCause b r.2.1
  else s.copyFailed

/-- Step 2 of the update: a confirmed ACTIVE goes into PREVIOUS (R460). -/
def updatePrevious (s : State) (b : BootEnv) (k : Nat) : State :=
  if s.verifyImage flashActive = 0 && !s.fw.trial then
    let s := s.putBoot 0 s.fw.attempts (b2n s.fw.fallback) 1 s.fw.bootCount
    let r := s.copyImage flashActive flashPrevious k
    let s := r.1.readImages
    if r.2.2 then s.updateActive b r.2.1 else s.copyFailed
  else s.updateActive b k

/-- Step 4 of R456: an update is applied, from the phase the boot state records (R460). -/
def bootUpdate (s : State) (b : BootEnv) : State :=
  let phase := fieldAt s.bootState 11 1
  let k := b.copyFails
  if phase = 2 then (s.modFw fun f => { f with stage := 1 }).updateActive b k
  else if phase = 1 then (s.modFw fun f => { f with stage := 1 }).updatePrevious b k
  else if s.readyAt flashStaging then
    let s := s.modFw fun f => { f with stage := 1, stgVersion := fieldAt (s.imageHeader flashStaging) 12 4 }
    let c := s.verifyImage flashStaging
    if c ≠ 0 then ((s.flashWrite (flashStaging + 0x200) (List.replicate 16 0)).modFw fun f => { f with check := c }).enterRecovery 1 2 2
    else s.updatePrevious b k
  else s.bootCause b k

/-- KINDLING_START (R456): with RESET_N and PWR_OK high and REF_CLK running, the device leaves reset and boots. -/
def kindling (s : State) (b : BootEnv) : State :=
  if s.fw.stage ≠ 0 || !s.pins.resetN || !s.pins.refClk then s
  else
    let s := { s.freshNonce with inReset := false, mtime := 0, pins := { s.pins with faultN := true, pwrOk := true } }
    let s := s.modFw fun f => { f with strap := b.strap }
    if !b.flashOk then s.enterRecovery 2 2 3
    else
      let boot := s.bootState
      let s := s.resumeAsh.readImages.modFw fun f => { f with
        trial := fieldAt boot 8 1 == 1, attempts := min 3 (fieldAt boot 9 1), fallback := bit (fieldAt boot 10 1) 0, bootCount := fieldAt boot 12 4
        settings := some s.settingsRecord }
      if b.strap then s.enterRecovery 2 3 3 else s.bootUpdate b

/-- Recovery ends: the boot goes on at the point the rules give (R456, R460, R463, R464). -/
def leaveRecovery (s : State) (b : BootEnv) : State :=
  let after := s.recovery.after
  let s := { s with recovery := Recovery.none, pins := { s.pins with faultN := true } }
  let k := b.copyFails
  if after = 0 then s.bootAttempts b k
  else if after = 1 then s.bootFallback b k
  else if after = 2 then s.bootCause b k
  else if after = 3 then s.bootUpdate b
  else s.bootVerify b

/-- The first health mark of a boot: commands are served, and a CONFIRMED image has started (R35, R455, R456, R461, R468). -/
def healthMark (s : State) : State :=
  if s.fw.stage = 3 then
    let s := s.modFw fun f => { f with stage := 4, startDog := none, marked := true }
    if s.fw.trial then s
    else
      let s := s.modFw fun f => { f with attempts := 0 }
      s.putBoot 0 0 (b2n s.fw.fallback) 0 s.fw.bootCount
  else s

/-- A watchdog fires: an Ash record and a reset with its own cause (R461, R467). -/
def watchdog (s : State) (dog : Option Nat) (cause : Nat) : State :=
  match dog with
  | some t =>
    let s := s.timeTo t
    (s.bootRecord 7 s.fw.check).beginReset cause
  | none => s

/-- An ACK of the recovery protocol (R465). -/
def recoveryAck (s : State) (ip port seq st code : Nat) : State :=
  let m := leBytes 2 0x4B52 ++ [1, 6] ++ leBytes 4 seq ++ leBytes 4 0 ++ leBytes 2 0 ++ leBytes 1 st ++ leBytes 1 code
  { s with sent := .datagram ip port m :: s.sent
           recovery := { s.recovery with acks := s.recovery.acks ++ [(ip, port, seq, m)] } }

/-- The ACK that a client's sequence has received (R465). -/
def ackOf (s : State) (ip port seq : Nat) : Option (List Byte) :=
  (s.recovery.acks.find? fun a => a.1 == ip && a.2.1 == port && a.2.2.1 == seq).map (·.2.2.2)

/-- The session is bound to another client (R465). -/
def otherClient (s : State) (ip port : Nat) : Bool := match s.recovery.client with
  | some c => c != (ip, port)
  | none => false

/-- A datagram takes effect: recovery is on, no other client is bound, and its sequence is new (R465). -/
def recoveryTakes (s : State) (ip port seq : Nat) : Bool := s.recovery.mode != 0 && !s.otherClient ip port && (s.ackOf ip port seq).isNone

/-- A datagram of a recovery client: another client's is turned away, a repeated sequence gets its ACK again, any other takes effect and is
acknowledged (R465).  `binds` is set for HEADER and SETTINGS. -/
def recoveryDatagram (s : State) (ip port seq : Nat) (binds : Bool) (f : State → State × StageRes) : State :=
  if s.recovery.mode = 0 then s
  else if s.otherClient ip port then
    { s with sent := .datagram ip port (leBytes 2 0x4B52 ++ [1, 6] ++ leBytes 4 seq ++ leBytes 4 0 ++ leBytes 2 0 ++ [3, 4]) :: s.sent }
  else
    match s.ackOf ip port seq with
    | some m => { s with sent := .datagram ip port m :: s.sent }
    | none =>
      let s := if binds && s.recovery.client.isNone then { s with recovery := { s.recovery with client := some (ip, port) } } else s
      let r := f s
      r.1.recoveryAck ip port seq r.2.st (if r.2.st = 9 then r.2.result else r.2.rs)

/-- HEADER (R465). -/
def recHeader (s : State) (ip port seq : Nat) (d : List Byte) : State := s.recoveryDatagram ip port seq true fun s => s.stageHeader 0 d

/-- BODY (R465): chunks of up to 1,024 B. -/
def recBody (s : State) (ip port seq off : Nat) (d : List Byte) : State := s.recoveryDatagram ip port seq false fun s => s.stageBody off d 1024

/-- SETTINGS (R451, R465). -/
def recSettings (s : State) (ip port seq : Nat) (d : List Byte) : State :=
  s.recoveryDatagram ip port seq true fun s => if d.length ≠ 256 then (s, ⟨3, 6, 0⟩) else (s.writeCopy 1 256 248 d, ⟨0, 0, 0⟩)

/-- FINISH (R465, R467): a download that passes is accepted, and the update is applied. -/
def recFinish (s : State) (ip port seq : Nat) (b : BootEnv) : State :=
  let ok := s.recoveryTakes ip port seq && s.stageFinish.2.st = 0
  let t := s.recoveryDatagram ip port seq false fun s =>
    let r := s.stageFinish
    if r.2.st = 0 then (r.1.markReady, r.2) else r
  if ok then
    let t := { t.bootRecord 6 0 with recovery := Recovery.none, pins := { t.pins with faultN := true } }
    t.bootUpdate b
  else t

/-- BOOT (R464, R465): recovery ends now. -/
def recBoot (s : State) (ip port seq : Nat) (b : BootEnv) : State :=
  let t := s.recoveryDatagram ip port seq false fun s => (s, ⟨0, 0, 0⟩)
  if s.recoveryTakes ip port seq then t.leaveRecovery b else t

/-- ANNOUNCE, every second (R464, R465); its sequence is the device's choice. -/
def announceNow (s : State) : State :=
  let r := s.recovery
  if r.mode = 0 then s
  else
    let left := if r.mode = 1 then s.recoverySetting - r.secs else 0
    let d := leBytes 8 s.fuses.serial ++ leBytes 8 (s.regVal 0x1000) ++ leBytes 1 r.cause ++ leBytes 4 s.fw.actVersion ++ leBytes 4 s.fw.prevVersion ++ leBytes 2 left
    let m := leBytes 2 0x4B52 ++ [1, 1] ++ leBytes 4 (Config.free s.free 85 0) ++ leBytes 4 0 ++ leBytes 2 27 ++ [0, 0] ++ d
    { s.seeded with
      sent := .datagram 0xFFFFFFFF 7417 m :: s.sent
      recovery := { r with secs := if r.mode = 1 && r.client.isNone then r.secs + 1 else r.secs } }

/-- A session that stays silent for 10 s is released, and what it had partly staged is discarded (R465). -/
def sessionTimeout (s : State) : State :=
  if s.recovery.mode ≠ 0 && s.recovery.client.isSome then
    let s := { s with recovery := { s.recovery with client := none, acks := [] } }
    if s.fw.session then s.modFw fun f => { f with session := false, pages := [], staging := 0 } else s
  else s

/-- The wait of timed recovery ends, no session being bound (R464, R465). -/
def recoveryTimeout (s : State) (b : BootEnv) : State :=
  if s.recovery.mode = 1 && s.recovery.client.isNone then s.leaveRecovery b else s

/-- ALIVE changes its level while the firmware sends health marks (R377). -/
def toggleAlive (s : State) : State := if s.fw.stage = 4 then { s with pins := { s.pins with alive := !s.pins.alive } } else s

end State
end Sys2Proof.Machine
end

