-- ==== Sys2Proof/Machine/HostOps.lean ====
section
/-! DEFINITION. Accesses from the board and the host cores: loads and stores (R208-R211, R219, R220, R228), PCIe (R485), I3C (R487), ARP and ICMP
(R486).  Log entry 44. -/

namespace Sys2Proof.Machine
namespace State

/-- What the device has answered or sent. -/
def send (s : State) (x : Sent) : State := { s with sent := x :: s.sent }

/-- Bytes that a device below the root port returns: open (log entry 1). -/
def pcieBytes (s : State) (n : Nat) : List Byte := (List.range n).map fun i => BitVec.ofNat 8 (Config.free s.free 66 i)

/-- A demand access of a host core or of a function below the root port to memory: what it reads, or the state after its store; a byte that
cannot be reached, or an uncorrectable error (`err` 2), gives an access fault (R208, R226-R229, R239). -/
def memAccess (s : State) (store : Bool) (a n : Nat) (d : List Byte) (err : Nat) : State :=
  let word := if (s.sliceOf a).1 = 0 then 32 else 64
  if store then
    match s.fwWrite a (bytesAt d 0 n) with
    | some t =>
      let rmw := decide (a % word ≠ 0) || decide (n % word ≠ 0)
      if rmw && err = 2 then (s.spoilAt a 1).send .accessFault
      else ((if rmw && err = 1 then t.eccCorrect a else t).countRange a n true 0 []).spoilRings a n
    | none => s.send .accessFault
  else
    match s.fwRead a n with
    | some bs =>
      if err = 2 then (s.spoilAt a 0).send .accessFault
      else
        let t := match s.region a with
          | .tiered b => s.touchBlk b
          | _ => s
        ((if err = 1 then t.eccCorrect a else t).countRange a n false 0 []).send (.value bs)
    | none => s.send .accessFault

/-- HOST_ACCESS: a load or store of a host core (R11, R208, R210, R211, R219, R220, R485). -/
def hostAccess (s : State) (store : Bool) (a n : Nat) (d : List Byte) (err : Nat) : State :=
  if s.memReg.hostGib = 0 || s.fw.stage < 3 then s
  else match s.region a with
    | .reg x =>
      if store then s
      else if n = 8 && x % 8 = 0 then (s.regTouch x).send (.value (leBytes 8 (s.regVal x))) else s.send (.value (List.replicate n 0))
    | .window _ _ => if store then s else s.send (.value (List.replicate n 0))
    | .pcie _ => if store then s.send (.pcieOut true a (bytesAt d 0 n)) else ((s.send (.pcieOut false a [])).send (.value (s.pcieBytes n))).seeded
    | .bad =>
      if 0x100000000 ≤ a && a < 0x200000000 then (if store then s else s.send (.value (List.replicate n 0))) else s.send .accessFault
    | _ => s.memAccess store a n d err

/-- PCIE_INBOUND: a request of a function below the root port (R211, R485). -/
def pcieInbound (s : State) (fwOwned store : Bool) (a n : Nat) (d : List Byte) (err : Nat) : State :=
  if !s.pcie.up then s
  else if 0x100000000 ≤ a && a < 0x200000000 then (if store then s else s.send (.value (List.replicate n 0)))
  else match s.region a with
    | .host => s.memAccess store a n d err
    | .tiered _ => if fwOwned then s.memAccess store a n d err else s.send .accessFault
    | .heart =>
      if !fwOwned then s.send .accessFault
      else if store then
        (if (s.fwRead a n).isSome then ({ s with mem := s.mem.write a (bytesAt d 0 n) }.countRange a n true 0 []).spoilRings a n else s.send .accessFault)
      else s.memAccess store a n d err
    | _ => s.send .accessFault

/-- I3C_PRIVATE_WRITE: 8 bytes set the register address (R487). -/
def i3cWrite (s : State) (d : List Byte) : State :=
  if d.length = 8 then { s with i3c := { s.i3c with pointer := leNat d } } else s

/-- A register that the sideband reads (R487); in reset, those outside the always-on domain read 0. -/
def i3cValue (s : State) (a : Nat) : Nat :=
  let ash := decide (0x2303100 ≤ a) && decide (a ≤ 0x2303110)
  let ok := (0x1000 ≤ a && a < 0x2000) || (0x2400000 ≤ a && a < 0x2500000) || (0x2500000 ≤ a && a < 0x2600000) || a == regTimeNow || a == regTimeStatus || ash
  if !ok || (s.inReset && !ash) then 0 else s.regVal a

/-- I3C_PRIVATE_READ: the register at the address that was written (R487). -/
def i3cRead (s : State) : State :=
  let v := leBytes 8 (s.i3cValue s.i3c.pointer)
  ({ s with i3c := { s.i3c with out := v } }).send (.value v)

/-- SETDASA names the static address 0x4B (R487). -/
def i3cStatic (s : State) (a dyn : Nat) : State :=
  if a = 0x4B && s.i3c.dyn.isNone then { s with i3c := { s.i3c with dyn := some dyn } } else s

/-- ENTDAA: the target answers while it has no dynamic address (R487). -/
def i3cEnter (s : State) (dyn : Nat) : State := if s.i3c.dyn.isNone then { s with i3c := { s.i3c with dyn := some dyn } } else s

/-- The management port serves: the controller's code is loaded, or Kindling is in recovery (R456, R464, R486). -/
def portUp (s : State) : Bool := decide (2 ≤ s.fw.stage) || s.fw.cause != 0

/-- ARP_REQUEST (R486). -/
def arpRequest (s : State) (target : Nat) : State := if s.portUp && target = s.mgmtAddress then s.send (.arp target) else s

/-- ICMP_ECHO (R464, R486): recovery serves its own protocol only. -/
def icmpEcho (s : State) (dst : Nat) (d : List Byte) : State :=
  if s.portUp && s.recovery.mode = 0 && dst = s.mgmtAddress then s.send (.icmp dst d) else s

end State
end Sys2Proof.Machine
end

