-- ==== Sys2Proof/Machine/TakeUp.lean ====
section
/-! DEFINITION. Commands from packet to effect (R35, R338-R357, R361, R372-R374, R497): what each command does, take-up, release, fence, deadline,
and the tick (R326, R352).  Log entries 13 and 45. -/

namespace Sys2Proof.Machine

/-- The time at which an armed command is released: its release time, or for a tick command the first tick boundary at or after it (R338). -/
def Out.releaseAt (o : Out) : Nat := match o.h.rt with
  | some t => if o.cmd.rel == .tick then tickCeil t else t
  | none => o.effect

/-- A command that is armed at `now` awaits its release: one whose release time has not passed, and whose release has not come (R338-R340). -/
def Cmd.awaitsAt (c : Cmd) (h : Hdr) (now : Nat) : Bool :=
  h.rt.any fun t => decide (now ≤ t) && decide (now < if c.rel == .tick then tickCeil t else t)

/-- A parameter outside its range, whatever the state: reason 6 at take-up (R497). -/
def Cmd.outOfRange : Cmd → Bool
  | .mcastSet g c _ => 256 ≤ g || c = 0 || 576 < c
  | .winSet w _ | .winStart w | .winStop w => 32 ≤ w
  | .restore p | .adopt p _ _ _ => bit p.dests 1 && 4 ≤ p.ctrl
  | .boundedLoss n => 1000 < n
  | .linkEnable n | .linkDisable n => 36 ≤ n
  | .setLinkShares c b => 63 < c || 63 < b
  | .setFlueShares s a b c d e => 1 < s || [a, b, c, d, e].any (63 < ·)
  | .releaseCancel r _ => 64 ≤ r
  | .traceConfig d _ _ _ => 6 ≤ d
  | .traceTrigger m => 64 ≤ m
  | .captureClear k => 64 ≤ k
  | .ringCreate r _ _ _ _ | .ringDelete r | .ringQuery r => 64 ≤ r
  | .fenceClear p _ => 640 ≤ p && p ≠ 0xFFFF
  | .placeQuery _ _ c _ => 4096 < c
  | .regRead a n _ => n = 0 || 64 < n || 2 ^ 32 < a + 8 * n
  | _ => false

/-- The query group, which peers may send (R362, R373). -/
def Cmd.query (c : Cmd) : Bool := c.opcode / 256 == 9

/-- Fields of the parameters of a packet, `p` bytes into it (R351). -/
def readSnapSrc (f : Nat → Nat → Nat) : SnapSrc := ⟨f 0 4, f 4 1, f 5 1, f 6 1, f 7 1, f 8 4, f 16 8, f 12 1⟩

/-- JOB_LOAD's parameters (R363). -/
def readJobLoad (f : Nat → Nat → Nat) : JobLoad :=
  { program := f 0 8, seed := f 8 8, argument := f 16 8, gx := f 24 1, gy := f 25 1, priority := f 26 1 % 4, flags := f 27 1, jobTag := f 28 2, leads := f 30 1
    ox := f 32 1, oy := f 33 1, oz := f 34 1, ex := f 35 1, ey := f 36 1, ez := f 37 1, leadCells := (List.range 16).map fun i => f (40 + 2 * i) 2 }

/-- OBJ_MAP's parameters (R362). -/
def readObjMap (f : Nat → Nat → Nat) : ObjMap := ⟨f 0 8, f 8 4, f 12 1, f 13 1, f 14 1, f 15 1, f 16 1, f 20 4, f 24 4⟩

/-- The command of an opcode with its parameters (R362): `f` reads a field, `tail` the bytes from an offset on. -/
def readCmd (op : Nat) (f : Nat → Nat → Nat) (tail : Nat → List Byte) : Cmd :=
  if op = 0x0101 then .jobLoad (readJobLoad f)
  else if op = 0x0102 then .jobStart
  else if op = 0x0103 then .jobPreempt
  else if op = 0x0104 then .jobResume
  else if op = 0x0105 then .jobUnload
  else if op = 0x0106 then .jobReset
  else if op = 0x0107 then .cellReplace (f 0 2)
  else if op = 0x0108 then .mcastSet (f 0 1) (f 2 2) (f 8 8)
  else if op = 0x0201 then .objMap (readObjMap f)
  else if op = 0x0202 then .objUnmap (f 0 2)
  else if op = 0x0203 then .placeRise (f 0 2) (f 4 4) (f 8 4)
  else if op = 0x0204 then .placeSink (f 0 2) (f 4 4) (f 8 4)
  else if op = 0x0205 then .pin (f 0 2)
  else if op = 0x0206 then .unpin (f 0 2)
  else if op = 0x0207 then .winSet (f 0 1) (f 8 8)
  else if op = 0x0208 then .winStart (f 0 1)
  else if op = 0x0209 then .winStop (f 0 1)
  else if op = 0x0301 then .snapshot (readSnapSrc f)
  else if op = 0x0302 then .restore (readSnapSrc f)
  else if op = 0x0303 then .adopt (readSnapSrc f) (f 24 1) (f 25 1) (f 26 1)
  else if op = 0x0304 then .boundedLoss (f 0 2)
  else if op = 0x0401 then .collRun (f 0 8)
  else if op = 0x0402 then .fabricConfig (f 0 8)
  else if op = 0x0403 then .linkEnable (f 0 1)
  else if op = 0x0404 then .linkDisable (f 0 1)
  else if op = 0x0405 then .setLinkShares (f 0 1) (f 1 1)
  else if op = 0x0406 then .setFlueShares (f 0 1) (f 1 1) (f 2 1) (f 3 1) (f 4 1) (f 5 1)
  else if op = 0x0501 then .releaseCancel (f 0 1) (f 4 4)
  else if op = 0x0601 then .traceConfig (f 0 1) (f 1 1) (f 2 1) (f 4 4)
  else if op = 0x0602 then .traceTrigger (f 0 1)
  else if op = 0x0603 then .counterSelect (f 0 2) (f 2 1) (f 4 2)
  else if op = 0x0604 then .captureSet (f 0 1) (f 1 1) (f 8 8)
  else if op = 0x0605 then .captureClear (f 0 1)
  else if op = 0x0606 then .ashClear ((tail 0).take 128)
  else if op = 0x0701 then .ringCreate (f 0 1) (f 1 1) (f 2 1) (f 8 8) (f 16 8)
  else if op = 0x0702 then .ringDelete (f 0 1)
  else if op = 0x0703 then .fwStage (f 0 1) (f 4 4) (f 8 4) (f 16 8) (tail 24)
  else if op = 0x0704 then .fwConfirm
  else if op = 0x0705 then .fenceClear (f 0 2) ((tail 8).take 128)
  else if op = 0x0706 then .deviceReset (f 0 1)
  else if op = 0x0801 then .powerLimit (f 0 2)
  else if op = 0x0901 then .placeQuery (f 0 2) (f 4 4) (f 8 4) (f 16 8)
  else if op = 0x0902 then .jobQuery (f 0 8)
  else if op = 0x0903 then .timeQuery
  else if op = 0x0904 then .regRead (f 0 8) (f 8 1) (f 16 8)
  else if op = 0x0905 then .snapQuery (f 0 8)
  else if op = 0x0906 then .ringQuery (f 0 1)
  else .undefined op

/-- Units of a packet by its header; a bad field counts as one unit (R350). -/
def packetUnits (bs : List Byte) : Nat := let u := fieldAt bs 2 1; if u = 0 || 64 < u then 1 else u

/-- A packet of ring `n` (R350, R351): its bytes, and where it came from. Parameters that its units do not cover read as 0 (R13, R351; log entry 61). -/
def readPacket (n : Nat) (bs : List Byte) (from_ : Nat × Nat × Nat) (bad : Option Nat) : Waiting :=
  let w := fieldAt bs 0 4
  let rt := bit w 24
  let p := if rt then 24 else 16
  let u := bits w 23 16
  let h : Hdr := ⟨n, fieldAt bs 4 4, fieldAt bs 8 1 % 8, if rt then some (fieldAt bs 16 8) else none, bit w 25, if bit w 26 then some (fieldAt bs 12 4) else none⟩
  ⟨h, readCmd (bits w 15 0) (fun o k => fieldAt bs (p + o) k) (fun o => bs.drop (p + o)), packetUnits bs, from_, if u = 0 || 64 < u then some 6 else bad⟩

namespace State

/-- A command that has been armed ends before its effect (R371, R372). -/
def cancelOut (s : State) (o : Out) (st rs : Nat) : State :=
  let s := match o.cmd with
    | .collRun _ => { s with colls := s.colls.filter fun c => c.uid != o.uid }
    | .jobResume => s.dropResume o.h.job
    | .winStart n => (s.endRun o.h.job n).modWin o.h.job n fun w => { w with active := false }
    | _ => s
  s.finish o.uid st rs 0

/-- RELEASE_CANCEL (R372, R497): the first command taken up of those with the ring and tag. -/
def releaseCancelEffect (s : State) (o : Out) (ring tag : Nat) : State :=
  if 63 < ring then s.fail o.uid 6
  else match s.armed.find? fun x => x.h.ring == ring && x.h.tag == tag && x.uid != o.uid with
    | some x => (s.cancelOut x 3 5).finish o.uid 0 0 1
    | none => s.finish o.uid 0 0 0

/-- An opcode is reserved to firmware (R362, R373). -/
def firmwareOpcode (c : Cmd) : Bool := decide (0x0F00 ≤ c.opcode) && decide (c.opcode ≤ 0x0FFF)

/-- A command reserved to firmware, from a peer (R373): the manual gives its reply no contents and it no effect on the state (log entry 60). -/
def firmwareEffect (s : State) (o : Out) : State :=
  let v (k n : Nat) : Nat := Config.free s.free 90 k % n
  s.seeded.finishWith o.uid (v 0 12) (v 1 256) (v 2 (2 ^ 32)) (v 3 (2 ^ 64)) false []

/-- What a command does as it takes effect (R362). -/
def cmdEffect (s : State) (o : Out) : State :=
  match o.cmd with
  | .jobLoad p => s.jobLoadEffect o p
  | .jobStart => s.jobStartEffect o
  | .jobPreempt => s.jobPreemptEffect o
  | .jobResume => s.jobResumeEffect o
  | .jobUnload => s.jobUnloadEffect o
  | .jobReset => s.jobResetEffect o
  | .cellReplace c => s.cellReplaceEffect o c
  | .mcastSet g c a => s.mcastSetEffect o g c a
  | .objMap p => s.objMapEffect o p
  | .objUnmap n => s.objUnmapEffect o n
  | .placeRise n f c => s.intentEffect o true n f c
  | .placeSink n f c => s.intentEffect o false n f c
  | .pin n => s.pinEffect o n
  | .unpin n => s.unpinEffect o n
  | .winSet w a => s.winSetEffect o w a
  | .winStart w => s.winStartEffect o w
  | .winStop w => s.winStopEffect o w
  | .snapshot p => s.snapshotEffect o p
  | .restore p => s.restoreEffect o p
  | .adopt p x y z => s.adoptEffect o p x y z
  | .boundedLoss n => s.boundedEffect o n
  | .collRun _ => if s.jobLive o.h.job then s.startColl o.uid else s.cancelOut o 3 2
  | .fabricConfig a => s.fabricEffect o a
  | .linkEnable n => s.linkEnableEffect o n
  | .linkDisable n => s.linkDisableEffect o n
  | .setLinkShares c b => s.linkSharesEffect o c b
  | .setFlueShares k a b c d e => s.flueSharesEffect o k [a, b, c, d, e]
  | .releaseCancel r t => s.releaseCancelEffect o r t
  | .traceConfig d m p z => s.traceConfigEffect o d m p z
  | .traceTrigger m => s.traceTriggerEffect o m
  | .counterSelect c n e => s.counterSelectEffect o c n e
  | .captureSet k e a => s.captureSetEffect o k e a
  | .captureClear k => s.captureClearEffect o k
  | .ashClear auth => s.ashClearEffect o auth
  | .ringCreate n z c a b => s.ringCreateEffect o n z c a b
  | .ringDelete n => s.ringDeleteEffect o n
  | .fwStage _ _ _ _ _ => s.fwStageEffect
  | .fwConfirm => s.fwConfirmEffect o
  | .fenceClear p auth => s.fenceClearEffect o p auth
  | .deviceReset f => s.deviceResetEffect o f
  | .powerLimit w => s.powerLimitEffect o w
  | .placeQuery n f c buf => s.placeQueryEffect o n f c buf
  | .jobQuery buf => s.jobQueryEffect o buf
  | .timeQuery => s.timeQueryEffect o
  | .regRead a n buf => s.regReadEffect o a n buf
  | .snapQuery buf => s.snapQueryEffect o buf
  | .ringQuery n => s.ringQueryEffect o n
  | .undefined _ => if o.h.ring = 62 && firmwareOpcode o.cmd then s.firmwareEffect o else s.fail o.uid 1

/-- Ticks after its effect at which a command's deadline falls (R355). -/
def deadlineOf (h : Hdr) (c : Cmd) (effect : Nat) : Option Nat :=
  let ticks := match h.dl, c with
    | some n, _ => some n
    | none, .collRun _ => some 4096
    | none, _ => none
  ticks.map fun n => (tickOf effect + n) * Config.tickNs

/-- A command takes effect now (R353, R355); a JOB_RESUME's deadline counts from its release time. -/
def takeEffect (s : State) (u : Nat) : State :=
  let at_ (o : Out) : Nat := if o.cmd == .jobResume then max s.now (o.h.rt.getD 0) else s.now
  let s := s.modOut u fun o => { o with phase := .running, effect := at_ o, deadline := deadlineOf o.h o.cmd (at_ o) }
  match s.out? u with
  | some o => s.cmdEffect o
  | none => s

/-- An earlier command of the ring of `o` has not written its final reply (R354). -/
def fenceHolds (s : State) (o : Out) : Bool := s.outs.any fun x => x.h.ring == o.h.ring && x.uid < o.uid

/-- A command whose fence and release allow it takes effect; otherwise it waits (R338, R339, R354). -/
def proceed (s : State) (u : Nat) : State :=
  match s.out? u with
  | some o =>
    let future := o.cmd.awaitsAt o.h s.now
    let now := o.cmd.rel == .arm || o.cmd == .jobResume
    if future && !now then s.modOut u fun o => { o with phase := .armed }
    else if o.h.fence && s.fenceHolds o then s.modOut u fun o => { o with phase := .fenced }
    else s.takeEffect u
  | none => s

/-- The device can take a command up now (R35, R340, R341, R348, R352). -/
def canTake (s : State) (w : Waiting) : Bool :=
  let future := w.cmd.awaitsAt w.h s.now
  let need := if w.h.rt.isSome then 2 else w.cmd.replies
  decide (s.fw.stage = 4) && (w.h.rt.isNone || s.time.valid) && !(future && 1024 ≤ s.armed.length) && match s.ring? w.h.ring with
    | some r => !r.fresh && !r.closing && (62 ≤ w.h.ring || need ≤ s.ringRoom r)
    | none => false

/-- Peers send queries, and no one else the opcodes reserved to firmware (R373). -/
def sourceBad (w : Waiting) : Option Nat :=
  if w.h.ring = 62 && !w.cmd.query && !firmwareOpcode w.cmd then some 1 else if w.cmd.outOfRange then (match w.bad with
    | some r => some r
    | none => some 6) else w.bad

/-- A command is taken up: entries reserved for its replies, the first of two written, its checks made; then it takes effect, or waits for its
fence or its release (R338, R339, R348, R354, R357, R497). -/
def takeUp (s : State) (w : Waiting) : State :=
  let need := if w.h.rt.isSome then 2 else w.cmd.replies
  let late := w.h.rt.any fun t => decide (t < s.now)
  let o : Out := ⟨s.nextUid, w.h, w.cmd, .running, s.now, none, late, [], 0, 0, false, w.from_⟩
  let s := ((s.devCount 0xD w.h.ring 1).modRing w.h.ring fun r => { r with reserved := r.reserved + need }).modTime fun t =>
    if late then { t with late := bump64 t.late 1 } else t
  let s := { s with outs := s.outs ++ [o], nextUid := s.nextUid + 1 }
  let s := if need = 2 then s.accept o else s
  match sourceBad w with
  | some r => s.fail o.uid r
  | none =>
    match w.cmd with
    | .collRun a => (match s.acceptColl o a with
      | some s => s.proceed o.uid
      | none => s.fail o.uid 0)
    | .snapshot _ => s.keepReserve.proceed o.uid
    | _ => s.proceed o.uid

/-- Packets behind one that waits wait too: a command arrives at its ring, and is taken up where nothing holds it (R352). -/
def submit (s : State) (w : Waiting) : State :=
  if (s.waitq.any fun x => x.h.ring == w.h.ring) || !s.canTake w then
    (if (s.ring? w.h.ring).isSome || s.fw.stage < 4 then { s with waitq := s.waitq ++ [w] } else s)
  else s.takeUp w

/-- A command as it is taken up from a ring, by the rows of the command set. -/
def command (s : State) (h : Hdr) (c : Cmd) : State := s.submit ⟨h, c, 1, (0, 0, 0), none⟩

/-- Replies to peer firmware leave as CONTROL_MSG packets, oldest first (R373). -/
def sendPeers (s : State) : State :=
  let l := s.peerReplies.reverse
  l.foldl (fun s r =>
    (List.range (ceilDiv r.2.length 256)).foldl (fun s i => s.sendPacket none r.1 pkControl 0 0x3FF 0 0 0 ((r.2.drop (256 * i)).take 256)) s)
    { s with peerReplies := [] }

/-- What an event has let go on: writes that waited on a copy-on-write, intents that are satisfied, stops, collectives that end and those that start in
their place (R313), replies to peers. -/
def settled (s : State) : State := (s.retryStalled.settleWaiting).settleStops.settleColls.promoteColls.sendPeers

/-- Commands of ring `n` that wait are taken up, in order, at most `f`: how many may still be taken this tick (R352). -/
def takeWaiting (n : Nat) : Nat → State → State × Nat
  | 0, s => (s, 0)
  | f + 1, s =>
    match s.waitq.find? fun w => w.h.ring == n with
    | some w =>
      if s.canTake w then
        let s := { s with waitq := s.waitq.erase w }
        let s := if 62 ≤ n then s.modRing n fun r => { r with subCons := r.subCons + w.units } else s
        takeWaiting n f (s.takeUp w)
      else (s, 0)
    | none => (s, f + 1)

/-- Unit `i` of a submission ring (R345). -/
def unitAt (r : Ring) (i : Nat) : Nat := r.subBase + 64 + 64 * (i % 2 ^ r.s)

/-- Unit `i` of ring `n`'s submission ring as the device reads it: a byte rewritten since the device first saw the unit published is the old or
the new one (R13, R345). -/
def readUnit (s : State) (r : Ring) (i : Nat) : Option (List Byte) :=
  (s.fwRead (unitAt r i) 64).map fun bs => match r.seen.find? fun x => x.1 == i with
    | some x => bs.zipIdx.map fun b => if x.2.getD b.2 0 = b.1 then b.1 else if pick s.free (drawTag 16 i r.num) b.2 2 = 0 then x.2.getD b.2 0 else b.1
    | none => bs

/-- The packet at sub_cons, whose units lie below `prod` (R350, R352).  Of a ring whose memory is unmapped or poisoned none is read (R13, R349; log entry
61); the units beyond a ring's size that a sub_prod too far ahead names are the slots again (R13, R346; log entry 61). -/
def nextPacket (s : State) (n prod : Nat) : Option Waiting :=
  match s.ring? n with
  | some r =>
    if prod ≤ r.subCons then none
    else
      match s.readUnit r r.subCons with
      | some first =>
        let u := packetUnits first
        if prod < r.subCons + u then none
        else
          let rest := (List.range (u - 1)).flatMap fun i => (s.readUnit r (r.subCons + 1 + i)).getD (List.replicate 64 0)
          some (readPacket n (first ++ rest) (0, 0, 0) none)
      | none => none
  | none => none

/-- The published units that the device leaves in the ring, as it has read them (R13). -/
def keepSeen (s : State) (n prod : Nat) : State :=
  match s.ring? n with
  | some r =>
    let l := (List.range (min (prod - r.subCons) (2 ^ r.s))).filterMap fun i => (s.readUnit r (r.subCons + i)).map fun bs => (r.subCons + i, bs)
    s.modRing n fun r => { r with seen := l }
  | none => s

/-- Packets published in ring `n`'s memory are taken up, in order, at most `f` (R352), read in class CONTROL (R26). -/
def takeRing (n prod : Nat) : Nat → State → State
  | 0, s => s
  | f + 1, s =>
    match s.nextPacket n prod with
    | some w =>
      if s.canTake w then
        let at_ := ((s.ring? n).map fun r => unitAt r r.subCons).getD 0
        takeRing n prod f (((s.countRange at_ (64 * w.units) false 4 []).modRing n fun r => { r with subCons := r.subCons + w.units }).takeUp w)
      else s
    | none => s

/-- The armed command that is released first, by `t` (R338). -/
def nextTimer (s : State) (t : Nat) (tick : Bool) : Option Out :=
  let l := s.armed.filter fun o => (o.cmd.rel == .tick) == tick && o.releaseAt ≤ t && (s.now < o.releaseAt || o.phase == .armed)
  match l with
  | [] => none
  | x :: xs => some (xs.foldl (fun b o => if o.releaseAt < b.releaseAt then o else b) x)

/-- The release time of an armed command arrives (R338, R354, R388). -/
def release (s : State) (o : Out) : State :=
  let s := s.timeTo o.releaseAt
  match o.cmd with
  | .winStart _ => s.finish o.uid 0 0 (o.h.rt.getD 0)
  | .jobResume => if o.phase == .armed then s.startResumed o.h.job o.uid else s
  | _ => if o.h.fence && s.fenceHolds o then s.modOut o.uid fun o => { o with phase := .fenced } else s.takeEffect o.uid

/-- Timer releases up to a time, in order (R338). -/
def runTimers (t : Nat) : Nat → State → State
  | 0, s => s
  | f + 1, s => match s.nextTimer t false with
    | some o => runTimers t f (s.release o)
    | none => s

/-- COMMAND_RELEASE: the earliest release of those armed arrives (R338). -/
def releaseCommand (s : State) (k : Nat) : State :=
  match s.armed[k]? with
  | some o => if s.armed.all fun x => o.releaseAt ≤ x.releaseAt then s.release o else s
  | none => s

/-- Commands whose deadline runs (R355). -/
def running (s : State) : List Out := s.outs.filter fun o => o.deadline.isSome && (o.phase == .running || o.phase == .placing || (o.phase == .armed && o.cmd == .jobResume))

/-- A command's deadline passes: it completes with ST_TIMEOUT (R247, R261, R322, R355, R387, R420). -/
def deadlinePasses (s : State) (o : Out) : State :=
  let j := o.h.job
  match o.cmd with
  | .jobLoad _ =>
    if o.phase == .placing then
      let b := s.job j
      let s := if b.loadedFrom = 1 then s.setJobState j 1
        else (s.modJob j fun b => { Job.empty with ctxGen := b.ctxGen, mapGen := b.mapGen, snap := b.snap, state := 2 }).setJobState j 0
      s.finish o.uid 6 0 0
    else s.finish o.uid 6 0 0
  | .jobResume => (s.dropResume j).finish o.uid 6 0 0
  | .restore _ | .adopt _ _ _ _ => if ((s.job j).rest.map (·.uid)) == some o.uid then s.dropRestore j 6 0 else s.finish o.uid 6 0 0
  | .collRun _ => (match s.colls.find? fun c => c.uid == o.uid with
    | some c =>
      if c.phase == .notifying then s else (s.failColl c 6 0).promoteColls
    | none => s.finish o.uid 6 0 0)
  | .placeRise _ _ _ | .placeSink _ _ _ =>
    let mine (i : Intent) : Bool := match i.origin with
      | .command u => u == o.uid
      | _ => false
    let s := { s with intents := s.intents.filter fun i => !mine i
                      moves := s.moves.map fun (m : Move) => { m with for_ := m.for_.filter fun i => !mine i } }
    let s := o.blocks.foldl (fun s b => s.blockRecord o b 6 0) s
    s.finishWith o.uid 6 0 (o.badBlocks + o.blocks.length) o.okBlocks false []
  | _ => s.finish o.uid 6 0 0

/-- COMMAND_DEADLINE: the deadline of the k-th command that runs arrives (R355). -/
def commandDeadline (s : State) (k : Nat) : State :=
  match s.running[k]? with
  | some o => (s.timeTo (o.deadline.getD 0)).deadlinePasses o
  | none => s

/-- FENCED_COMMAND_EFFECT: every earlier command of the ring has written its final reply (R354). -/
def fencedEffect (s : State) (k : Nat) : State :=
  match (s.outs.filter fun o => o.phase == .fenced)[k]? with
  | some o => if s.fenceHolds o then s else s.takeEffect o.uid
  | none => s

/-- The tick commands of ring `n` whose release has come (R338, R353). -/
def releaseTicks (n : Nat) : Nat → State → State
  | 0, s => s
  | f + 1, s =>
    match s.armed.find? fun o => o.h.ring == n && o.cmd.rel == .tick && o.releaseAt ≤ s.now with
    | some o => releaseTicks n f (s.release o)
    | none => s

/-- The sample of ring `n` at a tick boundary: its tick releases, then at most 64 packets (R352, R353). -/
def sampleRing (s : State) (n : Nat) : State :=
  let s := releaseTicks n (s.outs.length + 1) s
  match s.ring? n with
  | some r =>
    let r2 := takeWaiting n 64 s
    if 62 ≤ n || r2.2 = 0 then r2.1
    else
      let s := r2.1
      let prod := s.fwField r.subBase 8
      let t := (takeRing n prod r2.2 (s.countRange r.subBase 8 false 4 [])).keepSeen n prod
      match t.ring? n with
      | some r' => if r'.subCons = r.subCons then t else t.tryWrite (r.subBase + 8) (leBytes 8 r'.subCons)
      | none => t
  | none => s

/-- TICK: fabric time reaches the next tick boundary (R326, R352). -/
def tick (s : State) : State :=
  let next := (tickOf s.now + 1) * Config.tickNs
  let s := runTimers next (s.outs.length + 1) s
  let s := ({ s with mtime := s.mtime + (next - s.now) / 10 }.timeTo next).markClocks
  if s.fw.stage < 3 then s
  else
    let s := (s.applyShares.applyLimit.tickTrace.tickSelections.tickGroups).healthMark
    let s := { s with rings := s.rings.map fun (r : Ring) => { r with fresh := false } }
    let s := (s.rings.map (·.num)).foldl (fun s n => s.flushHeld n 8192) s
    let s := s.dropClosed
    let s := (List.range 64).foldl (fun s n => s.sampleRing n) s
    s.tickWins.settled

/-- MGMT_DATAGRAM (R344, R374): a new sequence goes into ring 63; one of the last 64 of its client is answered from the replies kept. -/
def mgmtDatagram (s : State) (ip port : Nat) (d : List Byte) : State :=
  let seq := fieldAt d 4 4
  let p := d.drop 8
  let mine := s.mgmtSeen.filter fun x => x.1 == ip && x.2.1 == port
  let seqs := ((mine.map fun x => x.2.2.1).eraseDups).take 64
  let waits := (s.waitq.any fun w => w.h.ring == 63 && w.from_ == (ip, port, seq)) || s.outs.any fun o => o.h.ring == 63 && o.from_ == (ip, port, seq)
  let held := (s.waitq.filter fun w => w.h.ring == 63).foldl (fun n w => n + w.units) 0
  if s.fw.stage < 3 || fieldAt d 0 2 ≠ 0x5354 || fieldAt d 2 1 ≠ 1 || p.length < 64 * packetUnits p then s
  else if seqs.contains seq then
    ((mine.filter fun x => x.2.2.1 == seq).reverse).foldl (fun s x => s.send (.datagram ip port x.2.2.2)) s
  else if waits || 256 < held + packetUnits p then s
  else
    let s := { s with mgmtSeen := s.mgmtSeen.filter fun x => !(x.1 == ip && x.2.1 == port) || seqs.contains x.2.2.1 }
    { s with waitq := s.waitq ++ [readPacket 63 (p.take (64 * packetUnits p)) (ip, port, seq) none] }

/-- A packet of a peer's firmware for ring 62 (R344, R373): its job is the context that holds the tag. -/
def peerPacket (s : State) (from_ : Nat × Nat × Nat) (tag : Nat) (d : List Byte) : Waiting :=
  let w := readPacket 62 d from_ (if (s.jobOfTag tag).isNone then some 2 else none)
  { w with h := { w.h with job := (s.jobOfTag tag).getD 0 } }

end State
end Sys2Proof.Machine
end

