-- ==== Sys2Proof/Machine/Arrival.lean ====
section
/-! DEFINITION. The arrival engine's commands (R53, R280, R283), and a remote WRITE (R285). -/

namespace Sys2Proof.Machine

/-- CREDIT_GRANT. A landing buffer or tracking entry of the core's arrival path serves the oldest waiting request (R280). -/
def execCreditGrant (lcn : Nat) (s : State) : Host.Outcome State Fault Refusal :=
  .next ((s.grantCredit lcn).settled)

/-- ARRIVAL_LAND. The oldest request in a landing buffer of the core lands (R53). -/
def execArrivalLand (lcn : Nat) (s : State) : Host.Outcome State Fault Refusal :=
  .next ((s.landArrival lcn).settled)

/-- WRITE. A remote WRITE packet arrives: source, target word, tag, data, and the item it belongs to (R285). -/
def execWrite (x : Nat) (y : Nat) (z : Nat) (word : Nat) (jobTag : Nat) (data : List Byte) (item : Nat) (itemLen : Nat) (sem : Nat) (s : State) : Host.Outcome State Fault Refusal :=
  .next ((s.remoteWrite (x, y, z) word jobTag item itemLen sem data).settled)

end Sys2Proof.Machine
end

