-- ==== Sys2Proof/Machine/Boot.lean ====
section
/-! DEFINITION. Resets, boot and watchdogs (R377, R456, R461, R472). -/

namespace Sys2Proof.Machine

/-- POWER_ON_RESET. R472. -/
def execPowerOnReset  (s : State) : Host.Outcome State Fault Refusal :=
  .next (s.powerOn)

/-- RESET_N. RESET_N has been low for 1 µs, or rises (R472). -/
def execResetN (low : Bool) (s : State) : Host.Outcome State Fault Refusal :=
  .next (s.resetPin low)

/-- PWR_OK_FALL. R472. -/
def execPwrOkFall  (s : State) : Host.Outcome State Fault Refusal :=
  .next (s.pwrOkFalls)

/-- KINDLING_START. The device leaves reset and boots (R456). -/
def execKindlingStart (b : BootEnv) (s : State) : Host.Outcome State Fault Refusal :=
  .next (s.kindling b)

/-- START_WATCHDOG. R461. -/
def execStartWatchdog  (s : State) : Host.Outcome State Fault Refusal :=
  .next (s.watchdog s.fw.startDog 5)

/-- CONFIRM_WATCHDOG. R461. -/
def execConfirmWatchdog  (s : State) : Host.Outcome State Fault Refusal :=
  .next (s.watchdog s.fw.confirmDog 6)

/-- ALIVE_TOGGLE. R377. -/
def execAliveToggle  (s : State) : Host.Outcome State Fault Refusal :=
  .next (s.toggleAlive)

end Sys2Proof.Machine
end

