-- ==== Sys2Proof/Machine/Coll.lean ====
section
/-! DEFINITION. Collectives (R312-R322). -/

namespace Sys2Proof.Machine

/-- COLL_RUN. R315. -/
def execCollRun (h : Hdr) (addr : Nat) (s : State) : Host.Outcome State Fault Refusal :=
  .next ((s.command h (.collRun addr)).settled)

/-- COLL_DATA. A peer's contribution to a running collective arrives (R317). -/
def execCollData (ring : Nat) (tag : Nat) (axis : Nat) (pos : Nat) (data : List Byte) (s : State) : Host.Outcome State Fault Refusal :=
  .next ((s.collDataArrives ring tag axis pos data).settled)

/-- COLL_CTRL. A collective abort arrives (R322). -/
def execCollCtrl (ring : Nat) (tag : Nat) (s : State) : Host.Outcome State Fault Refusal :=
  .next ((s.collAborted ring tag).settled)

/-- GLOBAL_NORM_POLL. The engine reads the contribution slots again (R318). -/
def execGlobalNormPoll (ring : Nat) (tag : Nat) (s : State) : Host.Outcome State Fault Refusal :=
  .next ((match s.coll? ring tag with
    | some c => (s.pollNorm c.uid).settled
    | none => s))

/-- COLL_COMPLETE. A collective completes (R320). -/
def execCollComplete (ring : Nat) (tag : Nat) (s : State) : Host.Outcome State Fault Refusal :=
  .next ((s.completeColl ring tag).settled)

end Sys2Proof.Machine
end

