-- ==== Sys2Proof/Machine/Commands.lean ====
section
/-! DEFINITION. Ticks, releases, deadlines, fences, rings and the queries of the device (chapters 12 and 13). -/

namespace Sys2Proof.Machine

/-- TICK. Fabric time reaches the next tick boundary (R326). -/
def execTick  (s : State) : Host.Outcome State Fault Refusal :=
  .next (s.tick)

/-- COMMAND_RELEASE. The release time of the k-th armed command arrives (R338). -/
def execCommandRelease (k : Nat) (s : State) : Host.Outcome State Fault Refusal :=
  .next ((s.releaseCommand k).settled)

/-- COMMAND_DEADLINE. The deadline of the k-th outstanding command arrives (R355). -/
def execCommandDeadline (k : Nat) (s : State) : Host.Outcome State Fault Refusal :=
  .next ((s.commandDeadline k).settled)

/-- FENCED_COMMAND_EFFECT. The k-th command waiting on its fence takes effect (R354). -/
def execFencedCommandEffect (k : Nat) (s : State) : Host.Outcome State Fault Refusal :=
  .next ((s.fencedEffect k).settled)

/-- RELEASE_CANCEL. R372. -/
def execReleaseCancel (h : Hdr) (ring : Nat) (tag : Nat) (s : State) : Host.Outcome State Fault Refusal :=
  .next ((s.command h (.releaseCancel ring tag)).settled)

/-- RING_CREATE. R349. -/
def execRingCreate (h : Hdr) (ring : Nat) (sz : Nat) (c : Nat) (subBase : Nat) (cmpBase : Nat) (s : State) : Host.Outcome State Fault Refusal :=
  .next ((s.command h (.ringCreate ring sz c subBase cmpBase)).settled)

/-- RING_DELETE. R349. -/
def execRingDelete (h : Hdr) (ring : Nat) (s : State) : Host.Outcome State Fault Refusal :=
  .next ((s.command h (.ringDelete ring)).settled)

/-- TIME_QUERY. R362. -/
def execTimeQuery (h : Hdr) (s : State) : Host.Outcome State Fault Refusal :=
  .next ((s.command h .timeQuery).settled)

/-- REG_READ. R362. -/
def execRegRead (h : Hdr) (addr : Nat) (words : Nat) (buf : Nat) (s : State) : Host.Outcome State Fault Refusal :=
  .next ((s.command h (.regRead addr words buf)).settled)

/-- RING_QUERY. R362. -/
def execRingQuery (h : Hdr) (ring : Nat) (s : State) : Host.Outcome State Fault Refusal :=
  .next ((s.command h (.ringQuery ring)).settled)

end Sys2Proof.Machine
end

