-- ==== Sys2Proof/Machine/Dma.lean ====
section
/-! DEFINITION. The fetch/store engine's commands (R52, R265-R279). -/

namespace Sys2Proof.Machine

/-- DESCRIPTOR_START. The descriptor at the queue head starts (R274). -/
def execDescriptorStart (lcn : Nat) (s : State) : Host.Outcome State Fault Refusal :=
  .next ((s.startHead lcn).settled)

/-- SLICE_REQUEST. The request in a slot of the core's fetch/store engine is served; `err` 0 no memory error, 1 corrected, 2 uncorrectable (R221, R226, R228). -/
def execSliceRequest (lcn : Nat) (slot : Nat) (err : Nat) (s : State) : Host.Outcome State Fault Refusal :=
  .next ((s.serveSlot lcn slot err).settled)

/-- REQUEST_FAILED. The request in a slot fails (R279). -/
def execRequestFailed (lcn : Nat) (slot : Nat) (s : State) : Host.Outcome State Fault Refusal :=
  .next ((s.failSlot lcn slot).settled)

/-- WRITE_ACK. The acknowledgement of a slot's write returns (R276). -/
def execWriteAck (lcn : Nat) (slot : Nat) (s : State) : Host.Outcome State Fault Refusal :=
  .next ((s.ackSlot lcn slot).settled)

/-- ITEM_COMPLETE. An item of the core completes (R276). -/
def execItemComplete (lcn : Nat) (uid : Nat) (s : State) : Host.Outcome State Fault Refusal :=
  .next ((s.completeItem lcn uid).settled)

/-- ITEM_DEADLINE. An item's deadline tick arrives (R275). -/
def execItemDeadline (lcn : Nat) (uid : Nat) (s : State) : Host.Outcome State Fault Refusal :=
  .next ((s.itemDeadline lcn uid).settled)

end Sys2Proof.Machine
end

