-- ==== Sys2Proof/Machine/Faults.lean ====
section
/-! DEFINITION. Faults (R392-R399). -/

namespace Sys2Proof.Machine

/-- CORE_FAULT. A core fault 0x20 or 0x21 (R394). -/
def execCoreFault (lcn : Nat) (code : Nat) (unit : Nat) (s : State) : Host.Outcome State Fault Refusal :=
  .next ((s.coreFaults lcn code unit).settled)

/-- ROUTER_FAULT. A core's router fails (R25, R392). -/
def execRouterFault (lcn : Nat) (s : State) : Host.Outcome State Fault Refusal :=
  .next ((s.fenceCore lcn 0x21 0 true).settled)

/-- MOVER_FAULT. R250, R392. -/
def execMoverFault (mover : Nat) (s : State) : Host.Outcome State Fault Refusal :=
  .next ((s.moverFails mover).settled)

/-- ENGINE_FAULT. A collective (1), digest (2) or capture (3) engine fails (R392). -/
def execEngineFault (kind : Nat) (num : Nat) (s : State) : Host.Outcome State Fault Refusal :=
  .next ((s.engineFails kind num).settled)

/-- WARDEN_HEARTBEAT. A warden's heartbeat reaches its pair (R398). -/
def execWardenHeartbeat (warden : Nat) (s : State) : Host.Outcome State Fault Refusal :=
  .next (s.heartbeat warden)

/-- WARDEN_FAULT. A warden fails (R398). -/
def execWardenFault (warden : Nat) (cause : Nat) (s : State) : Host.Outcome State Fault Refusal :=
  .next ((s.wardenFails warden cause).settled)

/-- DEVICE_FATAL. A device-fatal fault (R399). -/
def execDeviceFatal (code : Nat) (die : Nat) (unit : Nat) (s : State) : Host.Outcome State Fault Refusal :=
  .next (if 1 ≤ code ∧ code ≤ 8 then s.fatal code die unit 0xFF 4 else s)

end Sys2Proof.Machine
end

