-- ==== Sys2Proof/Machine/HostIf.lean ====
section
/-! DEFINITION. The device's edge: registers, host cores, PCIe, I3C and the management port (R8-R11, R208, R219, R373, R374, R485-R487). -/

namespace Sys2Proof.Machine

/-- REGISTER_WRITE. R8-R11. -/
def execRegisterWrite (_addr : Nat) (_width : Nat) (_value : Nat) (s : State) : Host.Outcome State Fault Refusal :=
  .next (s)

/-- HOST_ACCESS. A host-core load or store; `err` 0 no memory error, 1 corrected, 2 uncorrectable (R208, R219, R226, R228). -/
def execHostAccess (store : Bool) (addr : Nat) (width : Nat) (data : List Byte) (err : Nat) (s : State) : Host.Outcome State Fault Refusal :=
  .next (s.hostAccess store addr width data err)

/-- PCIE_INBOUND. R485. -/
def execPcieInbound (fwOwned : Bool) (store : Bool) (addr : Nat) (len : Nat) (data : List Byte) (err : Nat) (s : State) : Host.Outcome State Fault Refusal :=
  .next (s.pcieInbound fwOwned store addr len data err)

/-- I3C_PRIVATE_WRITE. R487. -/
def execI3cPrivateWrite (data : List Byte) (s : State) : Host.Outcome State Fault Refusal :=
  .next (s.i3cWrite data)

/-- I3C_PRIVATE_READ. R487. -/
def execI3cPrivateRead  (s : State) : Host.Outcome State Fault Refusal :=
  .next (s.i3cRead)

/-- SETDASA. R487. -/
def execSetdasa (addr7 : Nat) (dyn : Nat) (s : State) : Host.Outcome State Fault Refusal :=
  .next (s.i3cStatic addr7 dyn)

/-- ENTDAA. R487. -/
def execEntdaa (dyn : Nat) (s : State) : Host.Outcome State Fault Refusal :=
  .next (s.i3cEnter dyn)

/-- ARP_REQUEST. An ARP request for an IPv4 address (R486). -/
def execArpRequest (target : Nat) (s : State) : Host.Outcome State Fault Refusal :=
  .next (s.arpRequest target)

/-- ICMP_ECHO. An ICMP echo request (R486). -/
def execIcmpEcho (dst : Nat) (data : List Byte) (s : State) : Host.Outcome State Fault Refusal :=
  .next (s.icmpEcho dst data)

/-- MGMT_DATAGRAM. A UDP datagram on port 7,416 (R374). -/
def execMgmtDatagram (ip : Nat) (port : Nat) (data : List Byte) (s : State) : Host.Outcome State Fault Refusal :=
  .next (s.mgmtDatagram ip port data)

/-- CONTROL_MSG. A peer firmware packet arrives for ring 62 (R373). -/
def execControlMsg (x : Nat) (y : Nat) (z : Nat) (jobTag : Nat) (data : List Byte) (s : State) : Host.Outcome State Fault Refusal :=
  let w := s.peerPacket (x, y, z) jobTag data
  if s.fw.stage < 3 then .next s
  else .next { s with waitq := s.waitq ++ [w] }

end Sys2Proof.Machine
end

