-- ==== Sys2Proof/Machine/Jobs.lean ====
section
/-! DEFINITION. Jobs: loading, placing, starting, unloading, resetting, and their grids (R261, R281, R362-R371, R396, R397). -/

namespace Sys2Proof.Machine

/-- JOB_LOAD. R363. -/
def execJobLoad (h : Hdr) (p : JobLoad) (s : State) : Host.Outcome State Fault Refusal :=
  .next ((s.command h (.jobLoad p)).settled)

/-- JOB_PLACE. Freed cores let a waiting job be placed (R261, R370). -/
def execJobPlace  (s : State) : Host.Outcome State Fault Refusal :=
  .next (s.placeNext.settled)

/-- JOB_START. R362, R368. -/
def execJobStart (h : Hdr) (s : State) : Host.Outcome State Fault Refusal :=
  .next ((s.command h .jobStart).settled)

/-- JOB_UNLOAD. R362, R368. -/
def execJobUnload (h : Hdr) (s : State) : Host.Outcome State Fault Refusal :=
  .next ((s.command h .jobUnload).settled)

/-- JOB_RESET. R362, R368. -/
def execJobReset (h : Hdr) (s : State) : Host.Outcome State Fault Refusal :=
  .next ((s.command h .jobReset).settled)

/-- CELL_REPLACE. R397. -/
def execCellReplace (h : Hdr) (cell : Nat) (s : State) : Host.Outcome State Fault Refusal :=
  .next ((s.command h (.cellReplace cell)).settled)

/-- MCAST_SET. R281. -/
def execMcastSet (h : Hdr) (group : Nat) (count : Nat) (addr : Nat) (s : State) : Host.Outcome State Fault Refusal :=
  .next ((s.command h (.mcastSet group count addr)).settled)

/-- JOB_QUERY. R369. -/
def execJobQuery (h : Hdr) (buf : Nat) (s : State) : Host.Outcome State Fault Refusal :=
  .next ((s.command h (.jobQuery buf)).settled)

end Sys2Proof.Machine
end

