-- ==== Sys2Proof/Machine/Lead.lean ====
section
/-! DEFINITION. The lead-processor instructions (R60-R63, R125-R127). -/

namespace Sys2Proof.Machine

/-- LD_B. Load from lead data memory (R125). -/
def execLdB (lcn : Nat) (sd : Fin 32) (sa : Fin 32) (imm : BitVec 14) (s : State) : Host.Outcome State Fault Refusal :=
  .next (s.issueCtl lcn (.load 0 sd.val sa.val imm.toInt))

/-- LD_H. Load from lead data memory (R125). -/
def execLdH (lcn : Nat) (sd : Fin 32) (sa : Fin 32) (imm : BitVec 14) (s : State) : Host.Outcome State Fault Refusal :=
  .next (s.issueCtl lcn (.load 1 sd.val sa.val imm.toInt))

/-- LD_W. Load from lead data memory (R125). -/
def execLdW (lcn : Nat) (sd : Fin 32) (sa : Fin 32) (imm : BitVec 14) (s : State) : Host.Outcome State Fault Refusal :=
  .next (s.issueCtl lcn (.load 2 sd.val sa.val imm.toInt))

/-- LD_D. Load from lead data memory (R125). -/
def execLdD (lcn : Nat) (sd : Fin 32) (sa : Fin 32) (imm : BitVec 14) (s : State) : Host.Outcome State Fault Refusal :=
  .next (s.issueCtl lcn (.load 3 sd.val sa.val imm.toInt))

/-- ST_B. Store to lead data memory (R125). -/
def execStB (lcn : Nat) (sb : Fin 32) (sa : Fin 32) (imm : BitVec 14) (s : State) : Host.Outcome State Fault Refusal :=
  .next (s.issueCtl lcn (.store 0 sb.val sa.val imm.toInt))

/-- ST_H. Store to lead data memory (R125). -/
def execStH (lcn : Nat) (sb : Fin 32) (sa : Fin 32) (imm : BitVec 14) (s : State) : Host.Outcome State Fault Refusal :=
  .next (s.issueCtl lcn (.store 1 sb.val sa.val imm.toInt))

/-- ST_W. Store to lead data memory (R125). -/
def execStW (lcn : Nat) (sb : Fin 32) (sa : Fin 32) (imm : BitVec 14) (s : State) : Host.Outcome State Fault Refusal :=
  .next (s.issueCtl lcn (.store 2 sb.val sa.val imm.toInt))

/-- ST_D. Store to lead data memory (R125). -/
def execStD (lcn : Nat) (sb : Fin 32) (sa : Fin 32) (imm : BitVec 14) (s : State) : Host.Outcome State Fault Refusal :=
  .next (s.issueCtl lcn (.store 3 sb.val sa.val imm.toInt))

/-- FADD_D. FP64 arithmetic (R61). -/
def execFaddD (lcn : Nat) (sd : Fin 32) (sa : Fin 32) (sb : Fin 32) (s : State) : Host.Outcome State Fault Refusal :=
  .next (s.issueCtl lcn (.fp .add sd.val sa.val sb.val 0))

/-- FSUB_D. FP64 arithmetic (R61). -/
def execFsubD (lcn : Nat) (sd : Fin 32) (sa : Fin 32) (sb : Fin 32) (s : State) : Host.Outcome State Fault Refusal :=
  .next (s.issueCtl lcn (.fp .sub sd.val sa.val sb.val 0))

/-- FMUL_D. FP64 arithmetic (R61). -/
def execFmulD (lcn : Nat) (sd : Fin 32) (sa : Fin 32) (sb : Fin 32) (s : State) : Host.Outcome State Fault Refusal :=
  .next (s.issueCtl lcn (.fp .mul sd.val sa.val sb.val 0))

/-- FMA_D. FP64 fused multiply-add (R61). -/
def execFmaD (lcn : Nat) (sd : Fin 32) (sa : Fin 32) (sb : Fin 32) (sc : Fin 32) (s : State) : Host.Outcome State Fault Refusal :=
  .next (s.issueCtl lcn (.fp .fma sd.val sa.val sb.val sc.val))

/-- FDIV_D. FP64 divide (R61). -/
def execFdivD (lcn : Nat) (sd : Fin 32) (sa : Fin 32) (sb : Fin 32) (s : State) : Host.Outcome State Fault Refusal :=
  .next (s.issueCtl lcn (.fp .div sd.val sa.val sb.val 0))

/-- FSQRT_D. FP64 square root (R61). -/
def execFsqrtD (lcn : Nat) (sd : Fin 32) (sa : Fin 32) (s : State) : Host.Outcome State Fault Refusal :=
  .next (s.issueCtl lcn (.fp .sqrt sd.val sa.val 0 0))

/-- FCMP_D. FP64 comparison (R114). -/
def execFcmpD (lcn : Nat) (kd : Fin 8) (cond : BitVec 4) (sa : Fin 32) (sb : Fin 32) (s : State) : Host.Outcome State Fault Refusal :=
  .next (s.issueCtl lcn (.fcmp kd.val cond.toNat sa.val sb.val))

/-- CVT_D_L. Conversion (R126). -/
def execCvtDL (lcn : Nat) (sd : Fin 32) (sa : Fin 32) (s : State) : Host.Outcome State Fault Refusal :=
  .next (s.issueCtl lcn (.cvt .dl sd.val sa.val))

/-- CVT_L_D. Conversion (R126). -/
def execCvtLD (lcn : Nat) (sd : Fin 32) (sa : Fin 32) (s : State) : Host.Outcome State Fault Refusal :=
  .next (s.issueCtl lcn (.cvt .ld sd.val sa.val))

/-- CVT_D_F. Conversion (R126). -/
def execCvtDF (lcn : Nat) (sd : Fin 32) (sa : Fin 32) (s : State) : Host.Outcome State Fault Refusal :=
  .next (s.issueCtl lcn (.cvt .df sd.val sa.val))

/-- CVT_F_D. Conversion (R126). -/
def execCvtFD (lcn : Nat) (sd : Fin 32) (sa : Fin 32) (s : State) : Host.Outcome State Fault Refusal :=
  .next (s.issueCtl lcn (.cvt .fd sd.val sa.val))

/-- BR_I. R127. -/
def execBrI (lcn : Nat) (sa : Fin 32) (s : State) : Host.Outcome State Fault Refusal :=
  .next (s.issueCtl lcn (.brI sa.val))

/-- CALL. R127. -/
def execCall (lcn : Nat) (target : BitVec 14) (s : State) : Host.Outcome State Fault Refusal :=
  .next (s.issueCtl lcn (.call target.toNat))

/-- RET. R127. -/
def execRet (lcn : Nat) (s : State) : Host.Outcome State Fault Refusal :=
  .next (s.issueCtl lcn .ret)

end Sys2Proof.Machine
end

