-- ==== Sys2Proof/Machine/Links.lean ====
section
/-! DEFINITION. The fabric links (R28, R295-R311). -/

namespace Sys2Proof.Machine

/-- FABRIC_CONFIG. R366. -/
def execFabricConfig (h : Hdr) (addr : Nat) (s : State) : Host.Outcome State Fault Refusal :=
  .next ((s.command h (.fabricConfig addr)).settled)

/-- LINK_ENABLE. R305. -/
def execLinkEnable (h : Hdr) (link : Nat) (s : State) : Host.Outcome State Fault Refusal :=
  .next ((s.command h (.linkEnable link)).settled)

/-- LINK_DISABLE. R305. -/
def execLinkDisable (h : Hdr) (link : Nat) (s : State) : Host.Outcome State Fault Refusal :=
  .next ((s.command h (.linkDisable link)).settled)

/-- LINK_DISABLE_STOP. After 10 µs of idle flits the link stops its lanes (R305). -/
def execLinkDisableStop (link : Nat) (s : State) : Host.Outcome State Fault Refusal :=
  .next ((s.linkDown link).settled)

/-- SET_LINK_SHARES. R300. -/
def execSetLinkShares (h : Hdr) (coll : Nat) (bulk : Nat) (s : State) : Host.Outcome State Fault Refusal :=
  .next ((s.command h (.setLinkShares coll bulk)).settled)

/-- SET_FLUE_SHARES. R28. -/
def execSetFlueShares (h : Hdr) (sel : Nat) (demand : Nat) (move : Nat) (ember : Nat) (coll : Nat) (control : Nat) (s : State) : Host.Outcome State Fault Refusal :=
  .next ((s.command h (.setFlueShares sel demand move ember coll control)).settled)

/-- FLIT_RECEIVE. A flit is received; `fecOk` FEC corrected or passed every codeword it overlaps (R296). -/
def execFlitReceive (link : Nat) (flit : List Byte) (fecOk : Bool) (s : State) : Host.Outcome State Fault Refusal :=
  .next ((s.flitIn link flit fecOk).settled)

/-- NAK. A NAK flit names the seq the receiver expects (R297). -/
def execNak (link : Nat) (seq : Nat) (s : State) : Host.Outcome State Fault Refusal :=
  .next (s.gotNak link seq)

/-- LINK_SILENCE. No flit for 10 µs (R304). -/
def execLinkSilence (link : Nat) (s : State) : Host.Outcome State Fault Refusal :=
  .next (s.retrain link)

/-- RETRAIN_DONE. A retrain completes (R303). -/
def execRetrainDone (link : Nat) (s : State) : Host.Outcome State Fault Refusal :=
  .next ((s.linkMove link 5 4 0).pump link)

/-- RETRAIN_TIMEOUT. A retrain passes 500 µs (R303). -/
def execRetrainTimeout (link : Nat) (s : State) : Host.Outcome State Fault Refusal :=
  .next (s.retrainFails link)

/-- DETECT_SIGNAL. Signal on all four lanes (R303). -/
def execDetectSignal (link : Nat) (s : State) : Host.Outcome State Fault Refusal :=
  .next (s.linkMove link 1 2 0)

/-- DETECT_TIMEOUT. No signal for 1 s (R303). -/
def execDetectTimeout (link : Nat) (s : State) : Host.Outcome State Fault Refusal :=
  .next (s.linkMove link 1 1 1)

/-- TRAIN_DONE. Training completes (R303). -/
def execTrainDone (link : Nat) (s : State) : Host.Outcome State Fault Refusal :=
  .next (s.linkMove link 2 3 0)

/-- TRAIN_TIMEOUT. Training passes 80 ms (R303). -/
def execTrainTimeout (link : Nat) (s : State) : Host.Outcome State Fault Refusal :=
  .next (s.linkMove link 2 1 2)

/-- NEGOTIATE_DONE. The identity exchange completes (R303). -/
def execNegotiateDone (link : Nat) (px : Nat) (py : Nat) (pz : Nat) (plink : Nat) (pgroup : Nat) (serial : Nat) (s : State) : Host.Outcome State Fault Refusal :=
  .next (s.negotiated link ⟨px, py, pz, plink, pgroup, serial, true⟩ serial)

/-- UNDELIVERABLE. An UNDELIVERABLE packet names a destination (R311). -/
def execUndeliverable (x : Nat) (y : Nat) (z : Nat) (s : State) : Host.Outcome State Fault Refusal :=
  .next ((s.undeliverableIn (x, y, z)).settled)

/-- WRITE_ACK_TIMEOUT. A remote WRITE is unacknowledged for 2 ms (R311). -/
def execWriteAckTimeout (x : Nat) (y : Nat) (z : Nat) (s : State) : Host.Outcome State Fault Refusal :=
  .next ((s.ackTimeout (x, y, z)).settled)

end Sys2Proof.Machine
end

