-- ==== Sys2Proof/Machine/ArrayEvents.lean ====
section
/-! DEFINITION. Events inside a core that the array, the sync unit and the end of its program bring about (R80, R94, R119, R124, R194). -/

namespace Sys2Proof.Machine
namespace State

/-- The next pass of the core starts streaming (R94): its streaming rows and starved cycles are counted (R423). -/
def startPass (s : State) (n : Nat) : State :=
  match s.core? n with
  | some c =>
    if c.cpu.st == .running || c.cpu.st == .stopped then
      let before := c.cpu.array.run.length
      let starved := c.cpu.starvedCycles
      let s := s.seeded.runCore n (Cpu.passStart s.free)
      match s.core? n with
      | some d =>
        if before < d.cpu.array.run.length then
          match d.cpu.array.run.getLast? with
          | some r => s.modCore n fun c => (c.count 4 (passRows r.entry r.idx)).count 5 starved
          | none => s
        else s
      | none => s
    else s
  | none => s

/-- The oldest pass in the array commits (R80); the cycles by which it is late are starved cycles (R51, R91). -/
def commitPass (s : State) (n : Nat) : State :=
  match s.core? n with
  | some c =>
    if c.cpu.array.run.isEmpty || c.cpu.st == .fenced then s
    else (s.seeded.runCore n (Cpu.passCommit s.free)).modCore n fun d => (d.count 3 1).count 5 c.cpu.lateBy
  | none => s

/-- The waits due for evaluation before the waiter `e` resumes: the array's own first, the others' when no bundle issues in the core's present
cycle any more (R195). -/
def evaluate (s : State) (n e : Nat) : State :=
  s.modCore n fun c =>
    if c.cpu.st == .fenced then c
    else if !c.cpu.issues || c.withheld then { c with cpu := c.cpu.endCycle }
    else if e = engArr then { c with cpu := c.cpu.evals.foldl (fun u x => Cpu.testWait x u engArr) c.cpu }
    else c

/-- The satisfied waiter `e` resumes; a woken fetch/store engine may start its head descriptor (R194, R274). -/
def wakeWaiter (s : State) (n e : Nat) : State :=
  let s := s.evaluate n e
  match s.core? n with
  | some c =>
    if c.cpu.waits.any (fun w => w.eng == e && w.wakeAt.isSome) && c.cpu.st != .fenced then
      let s := s.seeded.runCore n (Cpu.wake s.free e)
      if e = engFsd then
        let head := (c.dma.q.find? fun x => x.phase == .queued).map (·.uid)
        let mark (i : Item) : Item := if head == some i.uid then { i with phase := .woken } else i
        s.modCore n fun c => { c with dma := { c.dma with q := c.dma.q.map mark } }
      else s
    else s
  | none => s

/-- Issue resumes after WAIT.T (R57, R119): 2 cycles after issue for a target already past then, else at least 2 cycles after the copy of fabric
time, which is within 2 ns, has reached the target; a target within the tick under way comes now (log entry 46). -/
def resumeTime (s : State) (n : Nat) : State :=
  match s.core? n with
  | some c =>
    match c.cpu.seqTime with
    | some (target, issued, past) =>
      if c.cpu.st != .fenced && (past || target ≤ s.now + 2 || tickOf target ≤ tickOf s.now) then
        let s := if past then s else s.timeTo target
        let reached := s.cyclesAt c (target + pick s.free 14 n 5 - 2)
        s.seeded.runCore n fun u =>
          let x := if past then issued + 2 else max (issued + 2) (reached + 2)
          { u.runTo s.free (max u.cycle x) with seqTime := none, timeCopy := max u.timeCopy target }
      else s
    | none => s
  | none => s

/-- Every cell of the job has reached END: the job is ENDED and JOB_START replies (R368). -/
def jobEnds (s : State) (j : Nat) : State :=
  let b := s.job j
  if b.state = 4 && b.cells.all (·.ended) then
    let s := s.setJobState j 6
    match b.startUid with
    | some u => s.finish u 0 0 b.cells.length
    | none => s
  else s

/-- The core reports its part of the job complete and enters IDLE (R124). -/
def completeCore (s : State) (n : Nat) : State :=
  match s.core? n with
  | some c =>
    if c.cpu.st == .running && c.cpu.ended && c.cpu.held == 0 && c.dma.q.isEmpty && !c.withheld then
      let s := s.modCore n fun c => { c with cpu := { c.cpu with st := .idle, ended := false } }
      match c.job with
      | some j => (s.modJob j fun b => { b with cells := modAt b.cells c.cell fun x => { x with ended := true } }).jobEnds j
      | none => s
    else s
  | none => s

end State
end Sys2Proof.Machine
end

