-- ==== Sys2Proof/Machine/Matrix.lean ====
section
/-! DEFINITION. The matrix slot and the passes of the array (R69-R96, R129-R136). -/

namespace Sys2Proof.Machine

/-- TCFG. TCFG with rel = 0 (R129); `al` is the field that admits overlap. -/
def execTcfg (lcn : Nat) (tn : Fin 16) (sa : Fin 32) (al : Bool) (s : State) : Host.Outcome State Fault Refusal :=
  .next (s.issueMat lcn (.tcfg tn.val sa.val al))

/-- TCFG_RELEASE. TCFG with rel = 1 (R131). -/
def execTcfgRelease (lcn : Nat) (tn : Fin 16) (s : State) : Host.Outcome State Fault Refusal :=
  .next (s.issueMat lcn (.release tn.val))

/-- LDS. R133. -/
def execLds (lcn : Nat) (tg : Fin 16) (gm1 : BitVec 2) (kslice : BitVec 5) (nblock : BitVec 3) (arr : BitVec 2) (s : State) : Host.Outcome State Fault Refusal :=
  .next (s.issueMat lcn (.lds tg.val (gm1.toNat + 1) kslice.toNat nblock.toNat arr.toNat false))

/-- LDS_T. R133. -/
def execLdsT (lcn : Nat) (tg : Fin 16) (gm1 : BitVec 2) (kslice : BitVec 5) (nblock : BitVec 3) (arr : BitVec 2) (s : State) : Host.Outcome State Fault Refusal :=
  .next (s.issueMat lcn (.lds tg.val (gm1.toNat + 1) kslice.toNat nblock.toNat arr.toNat true))

/-- SWAP. R83. -/
def execSwap (lcn : Nat) (s : State) : Host.Outcome State Fault Refusal :=
  .next (s.issueMat lcn .swap)

/-- MMA. R134. -/
def execMma (lcn : Nat) (sa : Fin 32) (sb : Fin 32) (msem : BitVec 6) (arr : BitVec 2) (s : State) : Host.Outcome State Fault Refusal :=
  .next (s.issueMat lcn (.mma sa.val sb.val msem.toNat arr.toNat false))

/-- MMA_T. R134. -/
def execMmaT (lcn : Nat) (sa : Fin 32) (sb : Fin 32) (msem : BitVec 6) (arr : BitVec 2) (s : State) : Host.Outcome State Fault Refusal :=
  .next (s.issueMat lcn (.mma sa.val sb.val msem.toNat arr.toNat true))

/-- MWAIT. R135. -/
def execMwait (lcn : Nat) (mn : BitVec 6) (consume : Bool) (target : BitVec 16) (s : State) : Host.Outcome State Fault Refusal :=
  .next (s.issueMat lcn (.mwait mn.toNat consume target.toNat))

/-- PASS_START. The next pass of the core starts streaming (R94). -/
def execPassStart (lcn : Nat) (s : State) : Host.Outcome State Fault Refusal :=
  .next (s.startPass lcn)

/-- PASS_COMMIT. The oldest pass in the array commits (R80). -/
def execPassCommit (lcn : Nat) (s : State) : Host.Outcome State Fault Refusal :=
  .next (s.commitPass lcn)

end Sys2Proof.Machine
end

