-- ==== Sys2Proof/Machine/MoveSlot.lean ====
section
/-! DEFINITION. The move slot (R147-R149) and the landing of results (R106). -/

namespace Sys2Proof.Machine

/-- TLD. R148. -/
def execTld (lcn : Nat) (tn : Fin 16) (sa : Fin 32) (s : State) : Host.Outcome State Fault Refusal :=
  .next (s.issueMov lcn (.tld tn.val sa.val))

/-- TST. R148. -/
def execTst (lcn : Nat) (tn : Fin 16) (sa : Fin 32) (s : State) : Host.Outcome State Fault Refusal :=
  .next (s.issueMov lcn (.tst tn.val sa.val))

/-- ARD. R149. -/
def execArd (lcn : Nat) (tn : Fin 16) (aa : Fin 64) (row0 : BitVec 5) (nm1 : BitVec 5) (cr : Fin 16) (s : State) : Host.Outcome State Fault Refusal :=
  .next (s.issueMov lcn (.ard tn.val aa.val row0.toNat (nm1.toNat + 1) cr.val))

/-- RESULT_LAND. The earliest result in flight on the core lands (R106). -/
def execResultLand (lcn : Nat) (s : State) : Host.Outcome State Fault Refusal :=
  .next (s.coreEvent lcn Cpu.landNext)

end Sys2Proof.Machine
end

