-- ==== Sys2Proof/Machine/Observe.lean ====
section
/-! DEFINITION. Counters, trace, capture and the Ash log (chapter 16). -/

namespace Sys2Proof.Machine

/-- TRACE_CONFIG. R429. -/
def execTraceConfig (h : Hdr) (die : Nat) (mode : Nat) (post : Nat) (size : Nat) (s : State) : Host.Outcome State Fault Refusal :=
  .next ((s.command h (.traceConfig die mode post size)).settled)

/-- TRACE_TRIGGER. R430. -/
def execTraceTrigger (h : Hdr) (mask : Nat) (s : State) : Host.Outcome State Fault Refusal :=
  .next ((s.command h (.traceTrigger mask)).settled)

/-- COUNTER_SELECT. R423, R427. -/
def execCounterSelect (h : Hdr) (cell : Nat) (counter : Nat) (event : Nat) (s : State) : Host.Outcome State Fault Refusal :=
  .next ((s.command h (.counterSelect cell counter event)).settled)

/-- CAPTURE_SET. R434. -/
def execCaptureSet (h : Hdr) (slot : Nat) (engine : Nat) (addr : Nat) (s : State) : Host.Outcome State Fault Refusal :=
  .next ((s.command h (.captureSet slot engine addr)).settled)

/-- CAPTURE_CLEAR. R434. -/
def execCaptureClear (h : Hdr) (slot : Nat) (s : State) : Host.Outcome State Fault Refusal :=
  .next ((s.command h (.captureClear slot)).settled)

/-- CAPTURE_START. A capture engine starts the copy of a fired slot (R436). -/
def execCaptureStart (job : Nat) (slot : Nat) (engine : Nat) (s : State) : Host.Outcome State Fault Refusal :=
  .next (s.startCapture job slot engine)

/-- CAPTURE_COMPLETE. A capture finishes (R437). -/
def execCaptureComplete (job : Nat) (slot : Nat) (s : State) : Host.Outcome State Fault Refusal :=
  .next ((s.completeCapture job slot).settled)

/-- ASH_CLEAR. R445. -/
def execAshClear (h : Hdr) (auth : List Byte) (s : State) : Host.Outcome State Fault Refusal :=
  .next ((s.command h (.ashClear auth)).settled)

/-- TRACE_RECORD_WRITE. The die's writer takes the oldest record of a core's queue (R432). -/
def execTraceRecordWrite (die : Nat) (lcn : Nat) (s : State) : Host.Outcome State Fault Refusal :=
  .next (s.writeTrace die lcn)

/-- ASH_FLASH_COPY. The management controller copies the next Ash record to flash (R439). -/
def execAshFlashCopy  (s : State) : Host.Outcome State Fault Refusal :=
  .next (s.ashToFlash)

/-- ASH_VIEW_WRITE. The next Ash record is written to the heart view (R439). -/
def execAshViewWrite  (s : State) : Host.Outcome State Fault Refusal :=
  .next (s.ashToView)

/-- EVT_RF_READ. R426. -/
def execEvtRfRead (lcn : Nat) (s : State) : Host.Outcome State Fault Refusal :=
  .next (s.readRegister (0x1000180 + 0x1000 * lcn))

/-- DEV_RF_READ. R447. -/
def execDevRfRead (k : Nat) (s : State) : Host.Outcome State Fault Refusal :=
  .next (s.readRegister (0x2300800 + 8 * (k % 4)))

end Sys2Proof.Machine
end

