-- ==== Sys2Proof/Machine/Placement.lean ====
section
/-! DEFINITION. Objects, intents, pins, moves and the tiers (chapters 08 and 09). -/

namespace Sys2Proof.Machine

/-- RUN_AHEAD_TOUCH. A touch of a placement block reaches the directory (R259). -/
def execRunAheadTouch (lcn : Nat) (block : Nat) (s : State) : Host.Outcome State Fault Refusal :=
  .next (s.touchArrives lcn block)

/-- MOVE_START. A mover starts the oldest waiting move of the highest class (R244). -/
def execMoveStart (mover : Nat) (s : State) : Host.Outcome State Fault Refusal :=
  .next (s.startMove mover)

/-- MOVE_COMMIT. A move's last request is acknowledged; `err` an uncorrectable error at its source (R240, R228). -/
def execMoveCommit (block : Nat) (err : Bool) (s : State) : Host.Outcome State Fault Refusal :=
  .next ((s.moveCommit block err).settled)

/-- COW_COMMIT. A copy-on-write commits (R242). -/
def execCowCommit (block : Nat) (s : State) : Host.Outcome State Fault Refusal :=
  .next ((s.cowCommit block).settled)

/-- PATROL_SCRUB. A slice's patrol reads memory; `err` 0 none, 1 corrected, 2 uncorrectable (R230). -/
def execPatrolScrub (heart : Bool) (slice : Nat) (addr : Nat) (err : Nat) (s : State) : Host.Outcome State Fault Refusal :=
  .next ((s.patrol heart slice addr err).settled)

/-- HEART_STACK_FAILURE. A stack fails at run time (R392). -/
def execHeartStackFailure (stack : Nat) (s : State) : Host.Outcome State Fault Refusal :=
  .next ((s.stackFails stack).settled)

/-- OBJ_MAP. R235. -/
def execObjMap (h : Hdr) (p : ObjMap) (s : State) : Host.Outcome State Fault Refusal :=
  .next ((s.command h (.objMap p)).settled)

/-- OBJ_UNMAP. R239. -/
def execObjUnmap (h : Hdr) (obj : Nat) (s : State) : Host.Outcome State Fault Refusal :=
  .next ((s.command h (.objUnmap obj)).settled)

/-- PLACE_RISE. R247. -/
def execPlaceRise (h : Hdr) (obj : Nat) (first : Nat) (count : Nat) (s : State) : Host.Outcome State Fault Refusal :=
  .next ((s.command h (.placeRise obj first count)).settled)

/-- PLACE_SINK. R247. -/
def execPlaceSink (h : Hdr) (obj : Nat) (first : Nat) (count : Nat) (s : State) : Host.Outcome State Fault Refusal :=
  .next ((s.command h (.placeSink obj first count)).settled)

/-- PIN. R248. -/
def execPin (h : Hdr) (obj : Nat) (s : State) : Host.Outcome State Fault Refusal :=
  .next ((s.command h (.pin obj)).settled)

/-- UNPIN. R248. -/
def execUnpin (h : Hdr) (obj : Nat) (s : State) : Host.Outcome State Fault Refusal :=
  .next ((s.command h (.unpin obj)).settled)

/-- PLACE_QUERY. R237. -/
def execPlaceQuery (h : Hdr) (obj : Nat) (first : Nat) (count : Nat) (buf : Nat) (s : State) : Host.Outcome State Fault Refusal :=
  .next ((s.command h (.placeQuery obj first count buf)).settled)

end Sys2Proof.Machine
end

