-- ==== Sys2Proof/Machine/Power.lean ====
section
/-! DEFINITION. Power, the Damper, rails and references (R473-R483). -/

namespace Sys2Proof.Machine

/-- POWER_LIMIT. R474. -/
def execPowerLimit (h : Hdr) (watts : Nat) (s : State) : Host.Outcome State Fault Refusal :=
  .next ((s.command h (.powerLimit watts)).settled)

/-- BROWN_OUT. R473. -/
def execBrownOut (rail : Nat) (s : State) : Host.Outcome State Fault Refusal :=
  .next (s.brownOut rail)

/-- OVERVOLTAGE. R473. -/
def execOvervoltage (rail : Nat) (s : State) : Host.Outcome State Fault Refusal :=
  .next (s.overVolt rail)

/-- POWER_SAMPLE. R474. -/
def execPowerSample (watts : Nat) (s : State) : Host.Outcome State Fault Refusal :=
  .next (s.samplePower watts)

/-- POWER_LOOP. R475. -/
def execPowerLoop  (s : State) : Host.Outcome State Fault Refusal :=
  .next (s.runPowerLoop)

/-- SENSOR_SAMPLE. R478: 64 compute-die sensors, then 4 of W and 4 of E, in units of 0.125 °C. -/
def execSensorSample (temps : List Int) (s : State) : Host.Outcome State Fault Refusal :=
  .next (s.sampleSensors temps)

/-- THERMAL_STEP. R478. -/
def execThermalStep (die : Nat) (rise : Bool) (s : State) : Host.Outcome State Fault Refusal :=
  .next (s.stepThermal die rise)

/-- SUPPLY_DIP. R479. -/
def execSupplyDip (rail : Nat) (mv : Nat) (s : State) : Host.Outcome State Fault Refusal :=
  .next (s.supplyDips rail mv)

/-- DIP_DECAY. R479. -/
def execDipDecay (die : Nat) (s : State) : Host.Outcome State Fault Refusal :=
  .next (s.decayDip die)

/-- RAIL_RETURN_ABOVE_WARNING. R479. -/
def execRailReturnAboveWarning (rail : Nat) (s : State) : Host.Outcome State Fault Refusal :=
  .next (s.railReturns rail)

/-- REF_CLK_LOSS. R483. -/
def execRefClkLoss  (s : State) : Host.Outcome State Fault Refusal :=
  .next (s.refLost)

/-- LREF_LOSS. R483. -/
def execLrefLoss (east : Bool) (s : State) : Host.Outcome State Fault Refusal :=
  .next (s.linkRefLost east)

/-- PCIE_REFCLK_LOSS. R483. -/
def execPcieRefclkLoss  (s : State) : Host.Outcome State Fault Refusal :=
  .next (s.pcieRefLost.settled)

/-- TREF_LOSS. R483. -/
def execTrefLoss  (s : State) : Host.Outcome State Fault Refusal :=
  .next (s.timeRefLost)

/-- REF_CLK_RETURN. R483. -/
def execRefClkReturn  (s : State) : Host.Outcome State Fault Refusal :=
  .next ({ s with pins := { s.pins with refClk := true } })

end Sys2Proof.Machine
end

