-- ==== Sys2Proof/Machine/Preempt.lean ====
section
/-! DEFINITION. Preemption, saves and resumes (R264, R378-R389). -/

namespace Sys2Proof.Machine

/-- JOB_PREEMPT. R362, R368. -/
def execJobPreempt (h : Hdr) (s : State) : Host.Outcome State Fault Refusal :=
  .next ((s.command h .jobPreempt).settled)

/-- STOP_REQUEST. A stop request reaches the core (R379). -/
def execStopRequest (lcn : Nat) (s : State) : Host.Outcome State Fault Refusal :=
  .next ((s.stopCore lcn).settled)

/-- CORE_SAVE_DONE. The core's save completes (R383). -/
def execCoreSaveDone (lcn : Nat) (s : State) : Host.Outcome State Fault Refusal :=
  .next ((s.saveCore lcn).settled)

/-- JOB_RESUME. R362, R368. -/
def execJobResume (h : Hdr) (s : State) : Host.Outcome State Fault Refusal :=
  .next ((s.command h .jobResume).settled)

/-- CELL_RESTORE_COMPLETE. R264, R388. -/
def execCellRestoreComplete (job : Nat) (cell : Nat) (s : State) : Host.Outcome State Fault Refusal :=
  .next ((s.restoreDone job cell).settled)

end Sys2Proof.Machine
end

