-- ==== Sys2Proof/Machine/Recover.lean ====
section
/-! DEFINITION. Recovery mode (R464, R465). -/

namespace Sys2Proof.Machine

/-- ANNOUNCE. R465. -/
def execAnnounce  (s : State) : Host.Outcome State Fault Refusal :=
  .next (s.announceNow)

/-- HEADER. R465. -/
def execHeader (ip : Nat) (port : Nat) (seq : Nat) (data : List Byte) (s : State) : Host.Outcome State Fault Refusal :=
  .next (s.recHeader ip port seq data)

/-- BODY. R465. -/
def execBody (ip : Nat) (port : Nat) (seq : Nat) (off : Nat) (data : List Byte) (s : State) : Host.Outcome State Fault Refusal :=
  .next (s.recBody ip port seq off data)

/-- FINISH. R465. -/
def execFinish (ip : Nat) (port : Nat) (seq : Nat) (b : BootEnv) (s : State) : Host.Outcome State Fault Refusal :=
  .next (s.recFinish ip port seq b)

/-- SETTINGS. R465. -/
def execSettings (ip : Nat) (port : Nat) (seq : Nat) (data : List Byte) (s : State) : Host.Outcome State Fault Refusal :=
  .next (s.recSettings ip port seq data)

/-- BOOT. R465. -/
def execBoot (ip : Nat) (port : Nat) (seq : Nat) (b : BootEnv) (s : State) : Host.Outcome State Fault Refusal :=
  .next (s.recBoot ip port seq b)

/-- RECOVERY_SESSION_TIMEOUT. R465. -/
def execRecoverySessionTimeout  (s : State) : Host.Outcome State Fault Refusal :=
  .next (s.sessionTimeout)

/-- RECOVERY_TIMEOUT. R464. -/
def execRecoveryTimeout (b : BootEnv) (s : State) : Host.Outcome State Fault Refusal :=
  .next (s.recoveryTimeout b)

end Sys2Proof.Machine
end

