-- ==== Sys2Proof/Machine/Scalar.lean ====
section
/-! DEFINITION. The scalar instructions of the control slot (R111-R115, R122, R123): each the issue of a bundle that holds it (log entry 20). -/

namespace Sys2Proof.Machine

/-- ADD. Scalar arithmetic on two registers (R111). -/
def execAdd (lcn : Nat) (sd : Fin 32) (sa : Fin 32) (sb : Fin 32) (s : State) : Host.Outcome State Fault Refusal :=
  .next (s.issueCtl lcn (.alu .add sd.val sa.val (.reg sb.val)))

/-- SUB. Scalar arithmetic on two registers (R111). -/
def execSub (lcn : Nat) (sd : Fin 32) (sa : Fin 32) (sb : Fin 32) (s : State) : Host.Outcome State Fault Refusal :=
  .next (s.issueCtl lcn (.alu .sub sd.val sa.val (.reg sb.val)))

/-- AND. Scalar arithmetic on two registers (R111). -/
def execAndOp (lcn : Nat) (sd : Fin 32) (sa : Fin 32) (sb : Fin 32) (s : State) : Host.Outcome State Fault Refusal :=
  .next (s.issueCtl lcn (.alu .and sd.val sa.val (.reg sb.val)))

/-- OR. Scalar arithmetic on two registers (R111). -/
def execOrOp (lcn : Nat) (sd : Fin 32) (sa : Fin 32) (sb : Fin 32) (s : State) : Host.Outcome State Fault Refusal :=
  .next (s.issueCtl lcn (.alu .or sd.val sa.val (.reg sb.val)))

/-- XOR. Scalar arithmetic on two registers (R111). -/
def execXor (lcn : Nat) (sd : Fin 32) (sa : Fin 32) (sb : Fin 32) (s : State) : Host.Outcome State Fault Refusal :=
  .next (s.issueCtl lcn (.alu .xor sd.val sa.val (.reg sb.val)))

/-- SHL. Scalar arithmetic on two registers (R111). -/
def execShl (lcn : Nat) (sd : Fin 32) (sa : Fin 32) (sb : Fin 32) (s : State) : Host.Outcome State Fault Refusal :=
  .next (s.issueCtl lcn (.alu .shl sd.val sa.val (.reg sb.val)))

/-- SHR. Scalar arithmetic on two registers (R111). -/
def execShr (lcn : Nat) (sd : Fin 32) (sa : Fin 32) (sb : Fin 32) (s : State) : Host.Outcome State Fault Refusal :=
  .next (s.issueCtl lcn (.alu .shr sd.val sa.val (.reg sb.val)))

/-- SRA. Scalar arithmetic on two registers (R111). -/
def execSra (lcn : Nat) (sd : Fin 32) (sa : Fin 32) (sb : Fin 32) (s : State) : Host.Outcome State Fault Refusal :=
  .next (s.issueCtl lcn (.alu .sra sd.val sa.val (.reg sb.val)))

/-- MUL. Scalar arithmetic on two registers (R111). -/
def execMul (lcn : Nat) (sd : Fin 32) (sa : Fin 32) (sb : Fin 32) (s : State) : Host.Outcome State Fault Refusal :=
  .next (s.issueCtl lcn (.alu .mul sd.val sa.val (.reg sb.val)))

/-- MIN. Scalar arithmetic on two registers (R111). -/
def execMin (lcn : Nat) (sd : Fin 32) (sa : Fin 32) (sb : Fin 32) (s : State) : Host.Outcome State Fault Refusal :=
  .next (s.issueCtl lcn (.alu .min sd.val sa.val (.reg sb.val)))

/-- MAX. Scalar arithmetic on two registers (R111). -/
def execMax (lcn : Nat) (sd : Fin 32) (sa : Fin 32) (sb : Fin 32) (s : State) : Host.Outcome State Fault Refusal :=
  .next (s.issueCtl lcn (.alu .max sd.val sa.val (.reg sb.val)))

/-- ADDI. Scalar arithmetic with a sign-extended imm14 (R111). -/
def execAddi (lcn : Nat) (sd : Fin 32) (sa : Fin 32) (imm : BitVec 14) (s : State) : Host.Outcome State Fault Refusal :=
  .next (s.issueCtl lcn (.alu .add sd.val sa.val (.imm imm.toInt)))

/-- SUBI. Scalar arithmetic with a sign-extended imm14 (R111). -/
def execSubi (lcn : Nat) (sd : Fin 32) (sa : Fin 32) (imm : BitVec 14) (s : State) : Host.Outcome State Fault Refusal :=
  .next (s.issueCtl lcn (.alu .sub sd.val sa.val (.imm imm.toInt)))

/-- ANDI. Scalar arithmetic with a sign-extended imm14 (R111). -/
def execAndi (lcn : Nat) (sd : Fin 32) (sa : Fin 32) (imm : BitVec 14) (s : State) : Host.Outcome State Fault Refusal :=
  .next (s.issueCtl lcn (.alu .and sd.val sa.val (.imm imm.toInt)))

/-- ORI. Scalar arithmetic with a sign-extended imm14 (R111). -/
def execOri (lcn : Nat) (sd : Fin 32) (sa : Fin 32) (imm : BitVec 14) (s : State) : Host.Outcome State Fault Refusal :=
  .next (s.issueCtl lcn (.alu .or sd.val sa.val (.imm imm.toInt)))

/-- XORI. Scalar arithmetic with a sign-extended imm14 (R111). -/
def execXori (lcn : Nat) (sd : Fin 32) (sa : Fin 32) (imm : BitVec 14) (s : State) : Host.Outcome State Fault Refusal :=
  .next (s.issueCtl lcn (.alu .xor sd.val sa.val (.imm imm.toInt)))

/-- SHLI. Scalar arithmetic with a sign-extended imm14 (R111). -/
def execShli (lcn : Nat) (sd : Fin 32) (sa : Fin 32) (imm : BitVec 14) (s : State) : Host.Outcome State Fault Refusal :=
  .next (s.issueCtl lcn (.alu .shl sd.val sa.val (.imm imm.toInt)))

/-- SHRI. Scalar arithmetic with a sign-extended imm14 (R111). -/
def execShri (lcn : Nat) (sd : Fin 32) (sa : Fin 32) (imm : BitVec 14) (s : State) : Host.Outcome State Fault Refusal :=
  .next (s.issueCtl lcn (.alu .shr sd.val sa.val (.imm imm.toInt)))

/-- SRAI. Scalar arithmetic with a sign-extended imm14 (R111). -/
def execSrai (lcn : Nat) (sd : Fin 32) (sa : Fin 32) (imm : BitVec 14) (s : State) : Host.Outcome State Fault Refusal :=
  .next (s.issueCtl lcn (.alu .sra sd.val sa.val (.imm imm.toInt)))

/-- MULI. Scalar arithmetic with a sign-extended imm14 (R111). -/
def execMuli (lcn : Nat) (sd : Fin 32) (sa : Fin 32) (imm : BitVec 14) (s : State) : Host.Outcome State Fault Refusal :=
  .next (s.issueCtl lcn (.alu .mul sd.val sa.val (.imm imm.toInt)))

/-- MINI. Scalar arithmetic with a sign-extended imm14 (R111). -/
def execMini (lcn : Nat) (sd : Fin 32) (sa : Fin 32) (imm : BitVec 14) (s : State) : Host.Outcome State Fault Refusal :=
  .next (s.issueCtl lcn (.alu .min sd.val sa.val (.imm imm.toInt)))

/-- MAXI. Scalar arithmetic with a sign-extended imm14 (R111). -/
def execMaxi (lcn : Nat) (sd : Fin 32) (sa : Fin 32) (imm : BitVec 14) (s : State) : Host.Outcome State Fault Refusal :=
  .next (s.issueCtl lcn (.alu .max sd.val sa.val (.imm imm.toInt)))

/-- LI. R112. -/
def execLi (lcn : Nat) (sd : Fin 32) (imm : BitVec 19) (s : State) : Host.Outcome State Fault Refusal :=
  .next (s.issueCtl lcn (.li sd.val imm.toInt))

/-- LIH. R112. -/
def execLih (lcn : Nat) (sd : Fin 32) (q : BitVec 2) (imm : BitVec 16) (s : State) : Host.Outcome State Fault Refusal :=
  .next (s.issueCtl lcn (.lih sd.val q.toNat imm.toNat))

/-- LC_SET. R113. -/
def execLcSet (lcn : Nat) (cn : Fin 16) (imm : BitVec 20) (s : State) : Host.Outcome State Fault Refusal :=
  .next (s.issueCtl lcn (.lcSet cn.val imm.toNat))

/-- LC_ADD. R113. -/
def execLcAdd (lcn : Nat) (cn : Fin 16) (imm : BitVec 20) (s : State) : Host.Outcome State Fault Refusal :=
  .next (s.issueCtl lcn (.lcAdd cn.val imm.toInt))

/-- LC_MOV. R113. -/
def execLcMov (lcn : Nat) (cn : Fin 16) (sa : Fin 32) (s : State) : Host.Outcome State Fault Refusal :=
  .next (s.issueCtl lcn (.lcMov cn.val sa.val))

/-- MOV_C. R113. -/
def execMovC (lcn : Nat) (sd : Fin 32) (cn : Fin 16) (s : State) : Host.Outcome State Fault Refusal :=
  .next (s.issueCtl lcn (.movC sd.val cn.val))

/-- CMP. R114. -/
def execCmp (lcn : Nat) (kd : Fin 8) (cond : BitVec 4) (sa : Fin 32) (sb : Fin 32) (s : State) : Host.Outcome State Fault Refusal :=
  .next (s.issueCtl lcn (.cmp kd.val cond.toNat sa.val (.reg sb.val)))

/-- CMPI. R114. -/
def execCmpi (lcn : Nat) (kd : Fin 8) (cond : BitVec 4) (sa : Fin 32) (imm : BitVec 12) (s : State) : Host.Outcome State Fault Refusal :=
  .next (s.issueCtl lcn (.cmp kd.val cond.toNat sa.val (.imm imm.toInt)))

/-- KOP. R115. -/
def execKop (lcn : Nat) (kd : Fin 8) (ka : Fin 8) (kb : Fin 8) (fn : BitVec 3) (s : State) : Host.Outcome State Fault Refusal :=
  .next (s.issueCtl lcn (.kop kd.val ka.val kb.val fn.toNat))

/-- SCALE_DN. R122. -/
def execScaleDn (lcn : Nat) (sd : Fin 32) (sa : Fin 32) (sh : BitVec 4) (s : State) : Host.Outcome State Fault Refusal :=
  .next (s.issueCtl lcn (.scaleDn sd.val sa.val sh.toNat))

/-- FLAG_K. R123. -/
def execFlagK (lcn : Nat) (kd : Fin 8) (s : State) : Host.Outcome State Fault Refusal :=
  .next (s.issueCtl lcn (.flagK kd.val))

/-- FLAG_CLR. R123. -/
def execFlagClr (lcn : Nat) (s : State) : Host.Outcome State Fault Refusal :=
  .next (s.issueCtl lcn .flagClr)

end Sys2Proof.Machine
end

