-- ==== Sys2Proof/Machine/Sequencer.lean ====
section
/-! DEFINITION. The sequencer: bundle issue, branches, time, MARK, DMAI and END (R39-R41, R101, R116, R119-R121, R124). -/

namespace Sys2Proof.Machine

/-- BUNDLE_ISSUE. The core issues the bundle at its program counter (R39). -/
def execBundleIssue (lcn : Nat) (s : State) : Host.Outcome State Fault Refusal :=
  .next (s.issueBundle lcn none)

/-- NOP. A bundle of four no-ops issues (R101). -/
def execNop (lcn : Nat) (s : State) : Host.Outcome State Fault Refusal :=
  .next (s.issueBundle lcn (some Bundle.nop))

/-- BR. R116. -/
def execBr (lcn : Nat) (target : BitVec 14) (s : State) : Host.Outcome State Fault Refusal :=
  .next (s.issueCtl lcn (.br target.toNat))

/-- BR_K. R116. -/
def execBrK (lcn : Nat) (kn : Fin 8) (sense : Bool) (target : BitVec 14) (s : State) : Host.Outcome State Fault Refusal :=
  .next (s.issueCtl lcn (.brK kn.val sense target.toNat))

/-- BR_C. R116. -/
def execBrC (lcn : Nat) (cn : Fin 16) (target : BitVec 14) (s : State) : Host.Outcome State Fault Refusal :=
  .next (s.issueCtl lcn (.brC cn.val target.toNat))

/-- WAIT_T. R119. -/
def execWaitT (lcn : Nat) (sa : Fin 32) (s : State) : Host.Outcome State Fault Refusal :=
  .next (s.issueCtl lcn (.waitT sa.val))

/-- TIME_RD. R119. -/
def execTimeRd (lcn : Nat) (sd : Fin 32) (s : State) : Host.Outcome State Fault Refusal :=
  .next (s.issueCtl lcn (.timeRd sd.val))

/-- MARK. R120. -/
def execMark (lcn : Nat) (sa : Fin 32) (id : BitVec 16) (s : State) : Host.Outcome State Fault Refusal :=
  .next (s.issueCtl lcn (.mark sa.val id.toNat))

/-- DMAI. R121. -/
def execDmai (lcn : Nat) (kd : Fin 8) (sa : Fin 32) (s : State) : Host.Outcome State Fault Refusal :=
  .next (s.issueCtl lcn (.dmai kd.val sa.val))

/-- END. R124. -/
def execEndOp (lcn : Nat) (s : State) : Host.Outcome State Fault Refusal :=
  .next (s.issueCtl lcn .stop)

/-- CORE_COMPLETE. After END the core reports its part complete (R124). -/
def execCoreComplete (lcn : Nat) (s : State) : Host.Outcome State Fault Refusal :=
  .next (s.completeCore lcn)

end Sys2Proof.Machine
end

