-- ==== Sys2Proof/Machine/Snapshot.lean ====
section
/-! DEFINITION. Ember snapshots, restore and adoption (chapter 15). -/

namespace Sys2Proof.Machine

/-- SNAPSHOT. R404. -/
def execSnapshot (h : Hdr) (p : SnapSrc) (s : State) : Host.Outcome State Fault Refusal :=
  .next ((s.command h (.snapshot p)).settled)

/-- DRAIN_CHECK. The device judges its drain at T + 2 ms (R407). -/
def execDrainCheck (job : Nat) (s : State) : Host.Outcome State Fault Refusal :=
  .next ((s.judgeDrain job).settled)

/-- EPOCH_ADVANCE. The state images are written and the epoch advances (R408, R409). -/
def execEpochAdvance (job : Nat) (s : State) : Host.Outcome State Fault Refusal :=
  .next ((s.advanceEpoch job).settled)

/-- STOP_END. The stop ends after the reserve top-up (R405). -/
def execStopEnd (job : Nat) (s : State) : Host.Outcome State Fault Refusal :=
  .next ((s.stopEnds job).settled)

/-- STOP_BOUND. The stop bound expires (R405). -/
def execStopBound (job : Nat) (s : State) : Host.Outcome State Fault Refusal :=
  .next ((s.stopBounded job).settled)

/-- IMAGE_TAKEN. Every destination has acknowledged or failed the next image (R412). -/
def execImageTaken (job : Nat) (buddyOk : Bool) (nvmeOk : Bool) (readErr : Bool) (s : State) : Host.Outcome State Fault Refusal :=
  .next ((s.takeNext job buddyOk nvmeOk readErr).settled)

/-- BUDDY_IMAGE_RECEIVE. A buddy receives an image, or a manifest whose digest matches or not (R415). -/
def execBuddyImageReceive (x : Nat) (y : Nat) (z : Nat) (tag : Nat) (manifest : Bool) (digestOk : Bool) (data : List Byte) (s : State) : Host.Outcome State Fault Refusal :=
  .next (s.storeImage x y z tag manifest digestOk data)

/-- NVME_COMPLETION. An NVMe command of the job's copy completes (R414). -/
def execNvmeCompletion (job : Nat) (ok : Bool) (s : State) : Host.Outcome State Fault Refusal :=
  .next ((s.nvmeDone job ok).settled)

/-- NVME_TIMEOUT. An NVMe command of the job's copy times out (R418). -/
def execNvmeTimeout (job : Nat) (s : State) : Host.Outcome State Fault Refusal :=
  .next ((s.nvmeDone job false).settled)

/-- RESTORE. R420. -/
def execRestore (h : Hdr) (p : SnapSrc) (s : State) : Host.Outcome State Fault Refusal :=
  .next ((s.command h (.restore p)).settled)

/-- RESTORE_IMAGE. The next image of a restore is read and checked (R420). -/
def execRestoreImage (job : Nat) (ok : Bool) (data : List Byte) (s : State) : Host.Outcome State Fault Refusal :=
  .next ((s.restoreEvent job ok data).settled)

/-- ADOPT. R421. -/
def execAdopt (h : Hdr) (p : SnapSrc) (fx : Nat) (fy : Nat) (fz : Nat) (s : State) : Host.Outcome State Fault Refusal :=
  .next ((s.command h (.adopt p fx fy fz)).settled)

/-- BOUNDED_LOSS. R419. -/
def execBoundedLoss (h : Hdr) (n : Nat) (s : State) : Host.Outcome State Fault Refusal :=
  .next ((s.command h (.boundedLoss n)).settled)

/-- SNAP_QUERY. R417. -/
def execSnapQuery (h : Hdr) (buf : Nat) (s : State) : Host.Outcome State Fault Refusal :=
  .next ((s.command h (.snapQuery buf)).settled)

end Sys2Proof.Machine
end

