-- ==== Sys2Proof/Machine/Sync.lean ====
section
/-! DEFINITION. Semaphores, waits and wakes (R117, R187-R197). -/

namespace Sys2Proof.Machine

/-- SEM_INC. R117. -/
def execSemInc (lcn : Nat) (mn : BitVec 6) (imm : BitVec 16) (s : State) : Host.Outcome State Fault Refusal :=
  .next (s.issueCtl lcn (.semInc mn.toNat imm.toNat))

/-- SEM_SET. R117. -/
def execSemSet (lcn : Nat) (mn : BitVec 6) (imm : BitVec 16) (s : State) : Host.Outcome State Fault Refusal :=
  .next (s.issueCtl lcn (.semSet mn.toNat imm.toNat))

/-- SEM_W. R117. -/
def execSemW (lcn : Nat) (mn : BitVec 6) (consume : Bool) (target : BitVec 16) (s : State) : Host.Outcome State Fault Refusal :=
  .next (s.issueCtl lcn (.semW mn.toNat consume target.toNat))

/-- SEMAPHORE_UPDATE. The earliest semaphore updates made on the core land on their counts (R189). -/
def execSemaphoreUpdate (lcn : Nat) (s : State) : Host.Outcome State Fault Refusal :=
  .next (s.coreEvent lcn Cpu.updateNext)

/-- WAITER_WAKE. The satisfied waiter `eng` (code of R187) resumes (R194). -/
def execWaiterWake (lcn : Nat) (eng : Nat) (s : State) : Host.Outcome State Fault Refusal :=
  .next (s.wakeWaiter lcn eng)

/-- WAIT_T_RESUME. The time copy reaches the WAIT.T target and issue resumes (R57). -/
def execWaitTResume (lcn : Nat) (s : State) : Host.Outcome State Fault Refusal :=
  .next (s.resumeTime lcn)

end Sys2Proof.Machine
end

