-- ==== Sys2Proof/Machine/Time.lean ====
section
/-! DEFINITION. Fabric time (R324-R337). -/

namespace Sys2Proof.Machine

/-- TIME_SYM. A time symbol arrives: the delay is half of the round trip less `turnPs`; of the sender's state its hop count says what counts, 255 unless
it is LOCKED (R333, R334; log entry 38). -/
def execTimeSym (link : Nat) (tTx : Nat) (roundPs : Nat) (turnPs : Nat) (hops : Nat) (master : Nat) (s : State) : Host.Outcome State Fault Refusal :=
  .next (s.timeSymbol link tTx ((roundPs - turnPs) / 2) hops master)

/-- TIME_SYM_SEND. A time symbol is sent (R333). -/
def execTimeSymSend (link : Nat) (s : State) : Host.Outcome State Fault Refusal :=
  .next (s.sendSymbol link)

/-- HOLDOVER_ENTRY. No symbol from the parent for 20 µs (R332). -/
def execHoldoverEntry  (s : State) : Host.Outcome State Fault Refusal :=
  .next (s.holdover)

/-- UNLOCKED_ENTRY. HOLDOVER has lasted 1 ms (R332). -/
def execUnlockedEntry  (s : State) : Host.Outcome State Fault Refusal :=
  .next (s.unlocked)

/-- STANDBY_TAKEOVER. The standby master becomes master (R337). -/
def execStandbyTakeover  (s : State) : Host.Outcome State Fault Refusal :=
  .next (s.takeOver)

/-- PPS_MARK. A once-per-second mark at the time master (R329). -/
def execPpsMark  (s : State) : Host.Outcome State Fault Refusal :=
  .next (s.ppsMark)

/-- PTP_MESSAGE. A PTP exchange gives the master the grandmaster's time (R330). -/
def execPtpMessage (gmTime : Nat) (s : State) : Host.Outcome State Fault Refusal :=
  .next (s.ptpTime gmTime)

/-- SOURCE_LOSS. The master loses its source (R331). -/
def execSourceLoss  (s : State) : Host.Outcome State Fault Refusal :=
  .next (s.loseSource)

/-- SOURCE_RETURN. The source returns (R331). -/
def execSourceReturn  (s : State) : Host.Outcome State Fault Refusal :=
  .next (s.sourceBack)

end Sys2Proof.Machine
end

