-- ==== Sys2Proof/Machine/Update.lean ====
section
/-! DEFINITION. Staging and confirming an image, fence maintenance, device reset (R375, R457-R462, R472). -/

namespace Sys2Proof.Machine

/-- FW_STAGE_HEADER. FW_STAGE phase 0 (R457); `inline` the packet's data on ring 63 (R459). -/
def execFwStageHeader (h : Hdr) (off : Nat) (len : Nat) (src : Nat) (body : List Byte) (s : State) : Host.Outcome State Fault Refusal :=
  .next ((s.command h (.fwStage 0 off len src body)).settled)

/-- FW_STAGE_BODY. FW_STAGE phase 1 (R457). -/
def execFwStageBody (h : Hdr) (off : Nat) (len : Nat) (src : Nat) (body : List Byte) (s : State) : Host.Outcome State Fault Refusal :=
  .next ((s.command h (.fwStage 1 off len src body)).settled)

/-- FW_STAGE_FINISH. FW_STAGE phase 2 (R457). -/
def execFwStageFinish (h : Hdr) (s : State) : Host.Outcome State Fault Refusal :=
  .next ((s.command h (.fwStage 2 0 0 0 [])).settled)

/-- FW_CONFIRM. R462. -/
def execFwConfirm (h : Hdr) (s : State) : Host.Outcome State Fault Refusal :=
  .next ((s.command h .fwConfirm).settled)

/-- FENCE_CLEAR. R375. -/
def execFenceClear (h : Hdr) (phys : Nat) (auth : List Byte) (s : State) : Host.Outcome State Fault Refusal :=
  .next ((s.command h (.fenceClear phys auth)).settled)

/-- DEVICE_RESET. R472. -/
def execDeviceReset (h : Hdr) (force : Nat) (s : State) : Host.Outcome State Fault Refusal :=
  .next ((s.command h (.deviceReset force)).settled)

/-- FLASH_OPERATION_COMPLETE. R376. -/
def execFlashOperationComplete  (s : State) : Host.Outcome State Fault Refusal :=
  .next (s.flashDone.settled)

end Sys2Proof.Machine
end

