-- ==== Sys2Proof/Machine/Vector.lean ====
section
/-! DEFINITION. The vector slot (R137-R146). -/

namespace Sys2Proof.Machine

/-- VOP_ADD. Elementwise operation (R140). -/
def execVopAdd (lcn : Nat) (td : Fin 16) (a : BitVec 7) (b : BitVec 7) (cr : Fin 16) (s : State) : Host.Outcome State Fault Refusal :=
  .next (s.issueVec lcn (.vop .add td.val a.toNat b.toNat cr.val))

/-- VOP_SUB. Elementwise operation (R140). -/
def execVopSub (lcn : Nat) (td : Fin 16) (a : BitVec 7) (b : BitVec 7) (cr : Fin 16) (s : State) : Host.Outcome State Fault Refusal :=
  .next (s.issueVec lcn (.vop .sub td.val a.toNat b.toNat cr.val))

/-- VOP_MUL. Elementwise operation (R140). -/
def execVopMul (lcn : Nat) (td : Fin 16) (a : BitVec 7) (b : BitVec 7) (cr : Fin 16) (s : State) : Host.Outcome State Fault Refusal :=
  .next (s.issueVec lcn (.vop .mul td.val a.toNat b.toNat cr.val))

/-- VOP_FMA. Elementwise operation (R140). -/
def execVopFma (lcn : Nat) (td : Fin 16) (a : BitVec 7) (b : BitVec 7) (cr : Fin 16) (s : State) : Host.Outcome State Fault Refusal :=
  .next (s.issueVec lcn (.vop .fma td.val a.toNat b.toNat cr.val))

/-- VOP_MAX. Elementwise operation (R140). -/
def execVopMax (lcn : Nat) (td : Fin 16) (a : BitVec 7) (b : BitVec 7) (cr : Fin 16) (s : State) : Host.Outcome State Fault Refusal :=
  .next (s.issueVec lcn (.vop .max td.val a.toNat b.toNat cr.val))

/-- VOP_MIN. Elementwise operation (R140). -/
def execVopMin (lcn : Nat) (td : Fin 16) (a : BitVec 7) (b : BitVec 7) (cr : Fin 16) (s : State) : Host.Outcome State Fault Refusal :=
  .next (s.issueVec lcn (.vop .min td.val a.toNat b.toNat cr.val))

/-- VOP_ABS. Elementwise operation (R140). -/
def execVopAbs (lcn : Nat) (td : Fin 16) (a : BitVec 7) (b : BitVec 7) (cr : Fin 16) (s : State) : Host.Outcome State Fault Refusal :=
  .next (s.issueVec lcn (.vop .abs td.val a.toNat b.toNat cr.val))

/-- VOP_NEG. Elementwise operation (R140). -/
def execVopNeg (lcn : Nat) (td : Fin 16) (a : BitVec 7) (b : BitVec 7) (cr : Fin 16) (s : State) : Host.Outcome State Fault Refusal :=
  .next (s.issueVec lcn (.vop .neg td.val a.toNat b.toNat cr.val))

/-- VOP_EXP. Elementwise operation (R140). -/
def execVopExp (lcn : Nat) (td : Fin 16) (a : BitVec 7) (b : BitVec 7) (cr : Fin 16) (s : State) : Host.Outcome State Fault Refusal :=
  .next (s.issueVec lcn (.vop .exp td.val a.toNat b.toNat cr.val))

/-- VOP_LOG. Elementwise operation (R140). -/
def execVopLog (lcn : Nat) (td : Fin 16) (a : BitVec 7) (b : BitVec 7) (cr : Fin 16) (s : State) : Host.Outcome State Fault Refusal :=
  .next (s.issueVec lcn (.vop .log td.val a.toNat b.toNat cr.val))

/-- VOP_RECIP. Elementwise operation (R140). -/
def execVopRecip (lcn : Nat) (td : Fin 16) (a : BitVec 7) (b : BitVec 7) (cr : Fin 16) (s : State) : Host.Outcome State Fault Refusal :=
  .next (s.issueVec lcn (.vop .recip td.val a.toNat b.toNat cr.val))

/-- VOP_RSQRT. Elementwise operation (R140). -/
def execVopRsqrt (lcn : Nat) (td : Fin 16) (a : BitVec 7) (b : BitVec 7) (cr : Fin 16) (s : State) : Host.Outcome State Fault Refusal :=
  .next (s.issueVec lcn (.vop .rsqrt td.val a.toNat b.toNat cr.val))

/-- VOP_TANH. Elementwise operation (R140). -/
def execVopTanh (lcn : Nat) (td : Fin 16) (a : BitVec 7) (b : BitVec 7) (cr : Fin 16) (s : State) : Host.Outcome State Fault Refusal :=
  .next (s.issueVec lcn (.vop .tanh td.val a.toNat b.toNat cr.val))

/-- VOP_MOV. Elementwise operation (R140). -/
def execVopMov (lcn : Nat) (td : Fin 16) (a : BitVec 7) (b : BitVec 7) (cr : Fin 16) (s : State) : Host.Outcome State Fault Refusal :=
  .next (s.issueVec lcn (.vop .mov td.val a.toNat b.toNat cr.val))

/-- VRED_SUM. Reduction into a tile element (R141). -/
def execVredSum (lcn : Nat) (td : Fin 16) (a : BitVec 7) (b : BitVec 7) (cr : Fin 16) (sh : BitVec 2) (s : State) : Host.Outcome State Fault Refusal :=
  .next (s.issueVec lcn (.vred .sum td.val a.toNat b.toNat cr.val sh.toNat))

/-- VRED_MAX. Reduction into a tile element (R141). -/
def execVredMax (lcn : Nat) (td : Fin 16) (a : BitVec 7) (b : BitVec 7) (cr : Fin 16) (sh : BitVec 2) (s : State) : Host.Outcome State Fault Refusal :=
  .next (s.issueVec lcn (.vred .max td.val a.toNat b.toNat cr.val sh.toNat))

/-- VRED_SSQ. Reduction into a tile element (R141). -/
def execVredSsq (lcn : Nat) (td : Fin 16) (a : BitVec 7) (b : BitVec 7) (cr : Fin 16) (sh : BitVec 2) (s : State) : Host.Outcome State Fault Refusal :=
  .next (s.issueVec lcn (.vred .ssq td.val a.toNat b.toNat cr.val sh.toNat))

/-- VRED_DOT. Reduction into a tile element (R141). -/
def execVredDot (lcn : Nat) (td : Fin 16) (a : BitVec 7) (b : BitVec 7) (cr : Fin 16) (sh : BitVec 2) (s : State) : Host.Outcome State Fault Refusal :=
  .next (s.issueVec lcn (.vred .dot td.val a.toNat b.toNat cr.val sh.toNat))

/-- VRED_S_SUM. Reduction into a scalar register (R142). -/
def execVredSSum (lcn : Nat) (sd : Fin 32) (a : BitVec 7) (b : BitVec 7) (cr : Fin 16) (s : State) : Host.Outcome State Fault Refusal :=
  .next (s.issueVec lcn (.vredS .sum sd.val a.toNat b.toNat cr.val))

/-- VRED_S_MAX. Reduction into a scalar register (R142). -/
def execVredSMax (lcn : Nat) (sd : Fin 32) (a : BitVec 7) (b : BitVec 7) (cr : Fin 16) (s : State) : Host.Outcome State Fault Refusal :=
  .next (s.issueVec lcn (.vredS .max sd.val a.toNat b.toNat cr.val))

/-- VRED_S_SSQ. Reduction into a scalar register (R142). -/
def execVredSSsq (lcn : Nat) (sd : Fin 32) (a : BitVec 7) (b : BitVec 7) (cr : Fin 16) (s : State) : Host.Outcome State Fault Refusal :=
  .next (s.issueVec lcn (.vredS .ssq sd.val a.toNat b.toNat cr.val))

/-- VRED_S_DOT. Reduction into a scalar register (R142). -/
def execVredSDot (lcn : Nat) (sd : Fin 32) (a : BitVec 7) (b : BitVec 7) (cr : Fin 16) (s : State) : Host.Outcome State Fault Refusal :=
  .next (s.issueVec lcn (.vredS .dot sd.val a.toNat b.toNat cr.val))

/-- CVT. R143. -/
def execCvt (lcn : Nat) (td : Fin 16) (a : BitVec 7) (ss : Fin 32) (cr : Fin 16) (g : Bool) (s : State) : Host.Outcome State Fault Refusal :=
  .next (s.issueVec lcn (.cvt td.val a.toNat ss.val cr.val g))

/-- RNG. R144. -/
def execRng (lcn : Nat) (td : Fin 16) (ss : Fin 32) (cr : Fin 16) (s : State) : Host.Outcome State Fault Refusal :=
  .next (s.issueVec lcn (.rng td.val ss.val cr.val))

/-- UPDC. R145, R169. -/
def execUpdc (lcn : Nat) (tw : Fin 16) (a : BitVec 7) (tq : Fin 16) (cr : Fin 16) (s : State) : Host.Outcome State Fault Refusal :=
  .next (s.issueVec lcn (.updc tw.val a.toNat tq.val cr.val))

/-- VSIG. R146. -/
def execVsig (lcn : Nat) (mn : BitVec 6) (imm : BitVec 16) (s : State) : Host.Outcome State Fault Refusal :=
  .next (s.issueVec lcn (.vsig mn.toNat imm.toNat))

/-- VWAIT. R146. -/
def execVwait (lcn : Nat) (mn : BitVec 6) (consume : Bool) (target : BitVec 16) (s : State) : Host.Outcome State Fault Refusal :=
  .next (s.issueVec lcn (.vwait mn.toNat consume target.toNat))

end Sys2Proof.Machine
end

