-- ==== Sys2Proof/Machine/Windows.lean ====
section
/-! DEFINITION. Stream windows (R251-R260). -/

namespace Sys2Proof.Machine

/-- WIN_SET. R252. -/
def execWinSet (h : Hdr) (win : Nat) (addr : Nat) (s : State) : Host.Outcome State Fault Refusal :=
  .next ((s.command h (.winSet win addr)).settled)

/-- WIN_START. R253. -/
def execWinStart (h : Hdr) (win : Nat) (s : State) : Host.Outcome State Fault Refusal :=
  .next ((s.command h (.winStart win)).settled)

/-- WIN_STOP. R256. -/
def execWinStop (h : Hdr) (win : Nat) (s : State) : Host.Outcome State Fault Refusal :=
  .next ((s.command h (.winStop win)).settled)

/-- WINDOW_CURSOR_ADVANCE. A window's cursor moves on, at a planned start or at a demand request (R253). -/
def execWindowCursorAdvance (job : Nat) (win : Nat) (byTime : Bool) (s : State) : Host.Outcome State Fault Refusal :=
  .next (s.advanceCursor job win byTime)

/-- WINDOW_LATE_RECORD. The grace of a region has passed (R255). -/
def execWindowLateRecord (job : Nat) (win : Nat) (region : Nat) (s : State) : Host.Outcome State Fault Refusal :=
  .next (s.lateRecord job win region)

/-- WINDOW_RESTART. A periodic window restarts (R256). -/
def execWindowRestart (job : Nat) (win : Nat) (s : State) : Host.Outcome State Fault Refusal :=
  .next (s.restartWin job win)

end Sys2Proof.Machine
end

