-- ==== Sys2Proof/Machine/Dispatch.lean ====
section
/-! DEFINITION. The dispatch of a command to its meaning, one arm for each constructor of Instr. -/

namespace Sys2Proof.Machine

/-- The effect of a command on everything but the queue. -/
def exec (i : Instr) (s : State) : Host.Outcome State Fault Refusal :=
  match i with
  | .bundleIssue lcn => Sys2Proof.Machine.execBundleIssue lcn s
  | .nop lcn => Sys2Proof.Machine.execNop lcn s
  | .add lcn sd sa sb => Sys2Proof.Machine.execAdd lcn sd sa sb s
  | .sub lcn sd sa sb => Sys2Proof.Machine.execSub lcn sd sa sb s
  | .andOp lcn sd sa sb => Sys2Proof.Machine.execAndOp lcn sd sa sb s
  | .orOp lcn sd sa sb => Sys2Proof.Machine.execOrOp lcn sd sa sb s
  | .xor lcn sd sa sb => Sys2Proof.Machine.execXor lcn sd sa sb s
  | .shl lcn sd sa sb => Sys2Proof.Machine.execShl lcn sd sa sb s
  | .shr lcn sd sa sb => Sys2Proof.Machine.execShr lcn sd sa sb s
  | .sra lcn sd sa sb => Sys2Proof.Machine.execSra lcn sd sa sb s
  | .mul lcn sd sa sb => Sys2Proof.Machine.execMul lcn sd sa sb s
  | .min lcn sd sa sb => Sys2Proof.Machine.execMin lcn sd sa sb s
  | .max lcn sd sa sb => Sys2Proof.Machine.execMax lcn sd sa sb s
  | .addi lcn sd sa imm => Sys2Proof.Machine.execAddi lcn sd sa imm s
  | .subi lcn sd sa imm => Sys2Proof.Machine.execSubi lcn sd sa imm s
  | .andi lcn sd sa imm => Sys2Proof.Machine.execAndi lcn sd sa imm s
  | .ori lcn sd sa imm => Sys2Proof.Machine.execOri lcn sd sa imm s
  | .xori lcn sd sa imm => Sys2Proof.Machine.execXori lcn sd sa imm s
  | .shli lcn sd sa imm => Sys2Proof.Machine.execShli lcn sd sa imm s
  | .shri lcn sd sa imm => Sys2Proof.Machine.execShri lcn sd sa imm s
  | .srai lcn sd sa imm => Sys2Proof.Machine.execSrai lcn sd sa imm s
  | .muli lcn sd sa imm => Sys2Proof.Machine.execMuli lcn sd sa imm s
  | .mini lcn sd sa imm => Sys2Proof.Machine.execMini lcn sd sa imm s
  | .maxi lcn sd sa imm => Sys2Proof.Machine.execMaxi lcn sd sa imm s
  | .li lcn sd imm => Sys2Proof.Machine.execLi lcn sd imm s
  | .lih lcn sd q imm => Sys2Proof.Machine.execLih lcn sd q imm s
  | .lcSet lcn cn imm => Sys2Proof.Machine.execLcSet lcn cn imm s
  | .lcAdd lcn cn imm => Sys2Proof.Machine.execLcAdd lcn cn imm s
  | .lcMov lcn cn sa => Sys2Proof.Machine.execLcMov lcn cn sa s
  | .movC lcn sd cn => Sys2Proof.Machine.execMovC lcn sd cn s
  | .cmp lcn kd cond sa sb => Sys2Proof.Machine.execCmp lcn kd cond sa sb s
  | .cmpi lcn kd cond sa imm => Sys2Proof.Machine.execCmpi lcn kd cond sa imm s
  | .kop lcn kd ka kb fn => Sys2Proof.Machine.execKop lcn kd ka kb fn s
  | .br lcn target => Sys2Proof.Machine.execBr lcn target s
  | .brK lcn kn sense target => Sys2Proof.Machine.execBrK lcn kn sense target s
  | .brC lcn cn target => Sys2Proof.Machine.execBrC lcn cn target s
  | .semInc lcn mn imm => Sys2Proof.Machine.execSemInc lcn mn imm s
  | .semSet lcn mn imm => Sys2Proof.Machine.execSemSet lcn mn imm s
  | .semW lcn mn consume target => Sys2Proof.Machine.execSemW lcn mn consume target s
  | .waitT lcn sa => Sys2Proof.Machine.execWaitT lcn sa s
  | .timeRd lcn sd => Sys2Proof.Machine.execTimeRd lcn sd s
  | .mark lcn sa id => Sys2Proof.Machine.execMark lcn sa id s
  | .dmai lcn kd sa => Sys2Proof.Machine.execDmai lcn kd sa s
  | .scaleDn lcn sd sa sh => Sys2Proof.Machine.execScaleDn lcn sd sa sh s
  | .flagK lcn kd => Sys2Proof.Machine.execFlagK lcn kd s
  | .flagClr lcn => Sys2Proof.Machine.execFlagClr lcn s
  | .endOp lcn => Sys2Proof.Machine.execEndOp lcn s
  | .coreComplete lcn => Sys2Proof.Machine.execCoreComplete lcn s
  | .ldB lcn sd sa imm => Sys2Proof.Machine.execLdB lcn sd sa imm s
  | .ldH lcn sd sa imm => Sys2Proof.Machine.execLdH lcn sd sa imm s
  | .ldW lcn sd sa imm => Sys2Proof.Machine.execLdW lcn sd sa imm s
  | .ldD lcn sd sa imm => Sys2Proof.Machine.execLdD lcn sd sa imm s
  | .stB lcn sb sa imm => Sys2Proof.Machine.execStB lcn sb sa imm s
  | .stH lcn sb sa imm => Sys2Proof.Machine.execStH lcn sb sa imm s
  | .stW lcn sb sa imm => Sys2Proof.Machine.execStW lcn sb sa imm s
  | .stD lcn sb sa imm => Sys2Proof.Machine.execStD lcn sb sa imm s
  | .faddD lcn sd sa sb => Sys2Proof.Machine.execFaddD lcn sd sa sb s
  | .fsubD lcn sd sa sb => Sys2Proof.Machine.execFsubD lcn sd sa sb s
  | .fmulD lcn sd sa sb => Sys2Proof.Machine.execFmulD lcn sd sa sb s
  | .fmaD lcn sd sa sb sc => Sys2Proof.Machine.execFmaD lcn sd sa sb sc s
  | .fdivD lcn sd sa sb => Sys2Proof.Machine.execFdivD lcn sd sa sb s
  | .fsqrtD lcn sd sa => Sys2Proof.Machine.execFsqrtD lcn sd sa s
  | .fcmpD lcn kd cond sa sb => Sys2Proof.Machine.execFcmpD lcn kd cond sa sb s
  | .cvtDL lcn sd sa => Sys2Proof.Machine.execCvtDL lcn sd sa s
  | .cvtLD lcn sd sa => Sys2Proof.Machine.execCvtLD lcn sd sa s
  | .cvtDF lcn sd sa => Sys2Proof.Machine.execCvtDF lcn sd sa s
  | .cvtFD lcn sd sa => Sys2Proof.Machine.execCvtFD lcn sd sa s
  | .brI lcn sa => Sys2Proof.Machine.execBrI lcn sa s
  | .call lcn target => Sys2Proof.Machine.execCall lcn target s
  | .ret lcn => Sys2Proof.Machine.execRet lcn s
  | .tcfg lcn tn sa al => Sys2Proof.Machine.execTcfg lcn tn sa al s
  | .tcfgRelease lcn tn => Sys2Proof.Machine.execTcfgRelease lcn tn s
  | .lds lcn tg gm1 kslice nblock arr => Sys2Proof.Machine.execLds lcn tg gm1 kslice nblock arr s
  | .ldsT lcn tg gm1 kslice nblock arr => Sys2Proof.Machine.execLdsT lcn tg gm1 kslice nblock arr s
  | .swap lcn => Sys2Proof.Machine.execSwap lcn s
  | .mma lcn sa sb msem arr => Sys2Proof.Machine.execMma lcn sa sb msem arr s
  | .mmaT lcn sa sb msem arr => Sys2Proof.Machine.execMmaT lcn sa sb msem arr s
  | .mwait lcn mn consume target => Sys2Proof.Machine.execMwait lcn mn consume target s
  | .passStart lcn => Sys2Proof.Machine.execPassStart lcn s
  | .passCommit lcn => Sys2Proof.Machine.execPassCommit lcn s
  | .vopAdd lcn td a b cr => Sys2Proof.Machine.execVopAdd lcn td a b cr s
  | .vopSub lcn td a b cr => Sys2Proof.Machine.execVopSub lcn td a b cr s
  | .vopMul lcn td a b cr => Sys2Proof.Machine.execVopMul lcn td a b cr s
  | .vopFma lcn td a b cr => Sys2Proof.Machine.execVopFma lcn td a b cr s
  | .vopMax lcn td a b cr => Sys2Proof.Machine.execVopMax lcn td a b cr s
  | .vopMin lcn td a b cr => Sys2Proof.Machine.execVopMin lcn td a b cr s
  | .vopAbs lcn td a b cr => Sys2Proof.Machine.execVopAbs lcn td a b cr s
  | .vopNeg lcn td a b cr => Sys2Proof.Machine.execVopNeg lcn td a b cr s
  | .vopExp lcn td a b cr => Sys2Proof.Machine.execVopExp lcn td a b cr s
  | .vopLog lcn td a b cr => Sys2Proof.Machine.execVopLog lcn td a b cr s
  | .vopRecip lcn td a b cr => Sys2Proof.Machine.execVopRecip lcn td a b cr s
  | .vopRsqrt lcn td a b cr => Sys2Proof.Machine.execVopRsqrt lcn td a b cr s
  | .vopTanh lcn td a b cr => Sys2Proof.Machine.execVopTanh lcn td a b cr s
  | .vopMov lcn td a b cr => Sys2Proof.Machine.execVopMov lcn td a b cr s
  | .vredSum lcn td a b cr sh => Sys2Proof.Machine.execVredSum lcn td a b cr sh s
  | .vredMax lcn td a b cr sh => Sys2Proof.Machine.execVredMax lcn td a b cr sh s
  | .vredSsq lcn td a b cr sh => Sys2Proof.Machine.execVredSsq lcn td a b cr sh s
  | .vredDot lcn td a b cr sh => Sys2Proof.Machine.execVredDot lcn td a b cr sh s
  | .vredSSum lcn sd a b cr => Sys2Proof.Machine.execVredSSum lcn sd a b cr s
  | .vredSMax lcn sd a b cr => Sys2Proof.Machine.execVredSMax lcn sd a b cr s
  | .vredSSsq lcn sd a b cr => Sys2Proof.Machine.execVredSSsq lcn sd a b cr s
  | .vredSDot lcn sd a b cr => Sys2Proof.Machine.execVredSDot lcn sd a b cr s
  | .cvt lcn td a ss cr g => Sys2Proof.Machine.execCvt lcn td a ss cr g s
  | .rng lcn td ss cr => Sys2Proof.Machine.execRng lcn td ss cr s
  | .updc lcn tw a tq cr => Sys2Proof.Machine.execUpdc lcn tw a tq cr s
  | .vsig lcn mn imm => Sys2Proof.Machine.execVsig lcn mn imm s
  | .vwait lcn mn consume target => Sys2Proof.Machine.execVwait lcn mn consume target s
  | .tld lcn tn sa => Sys2Proof.Machine.execTld lcn tn sa s
  | .tst lcn tn sa => Sys2Proof.Machine.execTst lcn tn sa s
  | .ard lcn tn aa row0 nm1 cr => Sys2Proof.Machine.execArd lcn tn aa row0 nm1 cr s
  | .resultLand lcn => Sys2Proof.Machine.execResultLand lcn s
  | .semaphoreUpdate lcn => Sys2Proof.Machine.execSemaphoreUpdate lcn s
  | .waiterWake lcn eng => Sys2Proof.Machine.execWaiterWake lcn eng s
  | .waitTResume lcn => Sys2Proof.Machine.execWaitTResume lcn s
  | .descriptorStart lcn => Sys2Proof.Machine.execDescriptorStart lcn s
  | .runAheadTouch lcn block => Sys2Proof.Machine.execRunAheadTouch lcn block s
  | .sliceRequest lcn slot err => Sys2Proof.Machine.execSliceRequest lcn slot err s
  | .requestFailed lcn slot => Sys2Proof.Machine.execRequestFailed lcn slot s
  | .writeAck lcn slot => Sys2Proof.Machine.execWriteAck lcn slot s
  | .itemComplete lcn uid => Sys2Proof.Machine.execItemComplete lcn uid s
  | .itemDeadline lcn uid => Sys2Proof.Machine.execItemDeadline lcn uid s
  | .creditGrant lcn => Sys2Proof.Machine.execCreditGrant lcn s
  | .arrivalLand lcn => Sys2Proof.Machine.execArrivalLand lcn s
  | .moveStart mover => Sys2Proof.Machine.execMoveStart mover s
  | .moveCommit block err => Sys2Proof.Machine.execMoveCommit block err s
  | .cowCommit block => Sys2Proof.Machine.execCowCommit block s
  | .patrolScrub heart slice addr err => Sys2Proof.Machine.execPatrolScrub heart slice addr err s
  | .heartStackFailure stack => Sys2Proof.Machine.execHeartStackFailure stack s
  | .tick => Sys2Proof.Machine.execTick s
  | .commandRelease k => Sys2Proof.Machine.execCommandRelease k s
  | .commandDeadline k => Sys2Proof.Machine.execCommandDeadline k s
  | .fencedCommandEffect k => Sys2Proof.Machine.execFencedCommandEffect k s
  | .jobLoad h p => Sys2Proof.Machine.execJobLoad h p s
  | .jobPlace => Sys2Proof.Machine.execJobPlace s
  | .jobStart h => Sys2Proof.Machine.execJobStart h s
  | .jobPreempt h => Sys2Proof.Machine.execJobPreempt h s
  | .stopRequest lcn => Sys2Proof.Machine.execStopRequest lcn s
  | .coreSaveDone lcn => Sys2Proof.Machine.execCoreSaveDone lcn s
  | .jobResume h => Sys2Proof.Machine.execJobResume h s
  | .jobUnload h => Sys2Proof.Machine.execJobUnload h s
  | .jobReset h => Sys2Proof.Machine.execJobReset h s
  | .cellReplace h cell => Sys2Proof.Machine.execCellReplace h cell s
  | .mcastSet h group count addr => Sys2Proof.Machine.execMcastSet h group count addr s
  | .objMap h p => Sys2Proof.Machine.execObjMap h p s
  | .objUnmap h obj => Sys2Proof.Machine.execObjUnmap h obj s
  | .placeRise h obj first count => Sys2Proof.Machine.execPlaceRise h obj first count s
  | .placeSink h obj first count => Sys2Proof.Machine.execPlaceSink h obj first count s
  | .pin h obj => Sys2Proof.Machine.execPin h obj s
  | .unpin h obj => Sys2Proof.Machine.execUnpin h obj s
  | .winSet h win addr => Sys2Proof.Machine.execWinSet h win addr s
  | .winStart h win => Sys2Proof.Machine.execWinStart h win s
  | .winStop h win => Sys2Proof.Machine.execWinStop h win s
  | .windowCursorAdvance job win byTime => Sys2Proof.Machine.execWindowCursorAdvance job win byTime s
  | .windowLateRecord job win region => Sys2Proof.Machine.execWindowLateRecord job win region s
  | .windowRestart job win => Sys2Proof.Machine.execWindowRestart job win s
  | .snapshot h p => Sys2Proof.Machine.execSnapshot h p s
  | .drainCheck job => Sys2Proof.Machine.execDrainCheck job s
  | .epochAdvance job => Sys2Proof.Machine.execEpochAdvance job s
  | .stopEnd job => Sys2Proof.Machine.execStopEnd job s
  | .stopBound job => Sys2Proof.Machine.execStopBound job s
  | .imageTaken job buddyOk nvmeOk readErr => Sys2Proof.Machine.execImageTaken job buddyOk nvmeOk readErr s
  | .buddyImageReceive x y z tag manifest digestOk data => Sys2Proof.Machine.execBuddyImageReceive x y z tag manifest digestOk data s
  | .nvmeCompletion job ok => Sys2Proof.Machine.execNvmeCompletion job ok s
  | .nvmeTimeout job => Sys2Proof.Machine.execNvmeTimeout job s
  | .restore h p => Sys2Proof.Machine.execRestore h p s
  | .restoreImage job ok data => Sys2Proof.Machine.execRestoreImage job ok data s
  | .adopt h p fx fy fz => Sys2Proof.Machine.execAdopt h p fx fy fz s
  | .boundedLoss h n => Sys2Proof.Machine.execBoundedLoss h n s
  | .collRun h addr => Sys2Proof.Machine.execCollRun h addr s
  | .collData ring tag axis pos data => Sys2Proof.Machine.execCollData ring tag axis pos data s
  | .collCtrl ring tag => Sys2Proof.Machine.execCollCtrl ring tag s
  | .globalNormPoll ring tag => Sys2Proof.Machine.execGlobalNormPoll ring tag s
  | .collComplete ring tag => Sys2Proof.Machine.execCollComplete ring tag s
  | .fabricConfig h addr => Sys2Proof.Machine.execFabricConfig h addr s
  | .linkEnable h link => Sys2Proof.Machine.execLinkEnable h link s
  | .linkDisable h link => Sys2Proof.Machine.execLinkDisable h link s
  | .linkDisableStop link => Sys2Proof.Machine.execLinkDisableStop link s
  | .setLinkShares h coll bulk => Sys2Proof.Machine.execSetLinkShares h coll bulk s
  | .setFlueShares h sel demand move ember coll control => Sys2Proof.Machine.execSetFlueShares h sel demand move ember coll control s
  | .releaseCancel h ring tag => Sys2Proof.Machine.execReleaseCancel h ring tag s
  | .traceConfig h die mode post size => Sys2Proof.Machine.execTraceConfig h die mode post size s
  | .traceTrigger h mask => Sys2Proof.Machine.execTraceTrigger h mask s
  | .counterSelect h cell counter event => Sys2Proof.Machine.execCounterSelect h cell counter event s
  | .captureSet h slot engine addr => Sys2Proof.Machine.execCaptureSet h slot engine addr s
  | .captureClear h slot => Sys2Proof.Machine.execCaptureClear h slot s
  | .captureStart job slot engine => Sys2Proof.Machine.execCaptureStart job slot engine s
  | .captureComplete job slot => Sys2Proof.Machine.execCaptureComplete job slot s
  | .ashClear h auth => Sys2Proof.Machine.execAshClear h auth s
  | .ringCreate h ring sz c subBase cmpBase => Sys2Proof.Machine.execRingCreate h ring sz c subBase cmpBase s
  | .ringDelete h ring => Sys2Proof.Machine.execRingDelete h ring s
  | .fwStageHeader h off len src body => Sys2Proof.Machine.execFwStageHeader h off len src body s
  | .fwStageBody h off len src body => Sys2Proof.Machine.execFwStageBody h off len src body s
  | .fwStageFinish h => Sys2Proof.Machine.execFwStageFinish h s
  | .fwConfirm h => Sys2Proof.Machine.execFwConfirm h s
  | .fenceClear h phys auth => Sys2Proof.Machine.execFenceClear h phys auth s
  | .deviceReset h force => Sys2Proof.Machine.execDeviceReset h force s
  | .powerLimit h watts => Sys2Proof.Machine.execPowerLimit h watts s
  | .placeQuery h obj first count buf => Sys2Proof.Machine.execPlaceQuery h obj first count buf s
  | .jobQuery h buf => Sys2Proof.Machine.execJobQuery h buf s
  | .timeQuery h => Sys2Proof.Machine.execTimeQuery h s
  | .regRead h addr words buf => Sys2Proof.Machine.execRegRead h addr words buf s
  | .snapQuery h buf => Sys2Proof.Machine.execSnapQuery h buf s
  | .ringQuery h ring => Sys2Proof.Machine.execRingQuery h ring s
  | .mgmtDatagram ip port data => Sys2Proof.Machine.execMgmtDatagram ip port data s
  | .controlMsg x y z jobTag data => Sys2Proof.Machine.execControlMsg x y z jobTag data s
  | .arpRequest target => Sys2Proof.Machine.execArpRequest target s
  | .icmpEcho dst data => Sys2Proof.Machine.execIcmpEcho dst data s
  | .ptpMessage gmTime => Sys2Proof.Machine.execPtpMessage gmTime s
  | .flitReceive link flit fecOk => Sys2Proof.Machine.execFlitReceive link flit fecOk s
  | .nak link seq => Sys2Proof.Machine.execNak link seq s
  | .linkSilence link => Sys2Proof.Machine.execLinkSilence link s
  | .retrainDone link => Sys2Proof.Machine.execRetrainDone link s
  | .retrainTimeout link => Sys2Proof.Machine.execRetrainTimeout link s
  | .detectSignal link => Sys2Proof.Machine.execDetectSignal link s
  | .detectTimeout link => Sys2Proof.Machine.execDetectTimeout link s
  | .trainDone link => Sys2Proof.Machine.execTrainDone link s
  | .trainTimeout link => Sys2Proof.Machine.execTrainTimeout link s
  | .negotiateDone link px py pz plink pgroup serial => Sys2Proof.Machine.execNegotiateDone link px py pz plink pgroup serial s
  | .write x y z word jobTag data item itemLen sem => Sys2Proof.Machine.execWrite x y z word jobTag data item itemLen sem s
  | .undeliverable x y z => Sys2Proof.Machine.execUndeliverable x y z s
  | .writeAckTimeout x y z => Sys2Proof.Machine.execWriteAckTimeout x y z s
  | .timeSym link tTx roundPs turnPs hops master => Sys2Proof.Machine.execTimeSym link tTx roundPs turnPs hops master s
  | .timeSymSend link => Sys2Proof.Machine.execTimeSymSend link s
  | .holdoverEntry => Sys2Proof.Machine.execHoldoverEntry s
  | .unlockedEntry => Sys2Proof.Machine.execUnlockedEntry s
  | .standbyTakeover => Sys2Proof.Machine.execStandbyTakeover s
  | .ppsMark => Sys2Proof.Machine.execPpsMark s
  | .sourceLoss => Sys2Proof.Machine.execSourceLoss s
  | .sourceReturn => Sys2Proof.Machine.execSourceReturn s
  | .coreFault lcn code unit => Sys2Proof.Machine.execCoreFault lcn code unit s
  | .routerFault lcn => Sys2Proof.Machine.execRouterFault lcn s
  | .moverFault mover => Sys2Proof.Machine.execMoverFault mover s
  | .engineFault kind num => Sys2Proof.Machine.execEngineFault kind num s
  | .wardenHeartbeat warden => Sys2Proof.Machine.execWardenHeartbeat warden s
  | .wardenFault warden cause => Sys2Proof.Machine.execWardenFault warden cause s
  | .deviceFatal code die unit => Sys2Proof.Machine.execDeviceFatal code die unit s
  | .traceRecordWrite die lcn => Sys2Proof.Machine.execTraceRecordWrite die lcn s
  | .ashFlashCopy => Sys2Proof.Machine.execAshFlashCopy s
  | .ashViewWrite => Sys2Proof.Machine.execAshViewWrite s
  | .evtRfRead lcn => Sys2Proof.Machine.execEvtRfRead lcn s
  | .devRfRead k => Sys2Proof.Machine.execDevRfRead k s
  | .registerWrite addr width value => Sys2Proof.Machine.execRegisterWrite addr width value s
  | .hostAccess store addr width data err => Sys2Proof.Machine.execHostAccess store addr width data err s
  | .pcieInbound fwOwned store addr len data err => Sys2Proof.Machine.execPcieInbound fwOwned store addr len data err s
  | .i3cPrivateWrite data => Sys2Proof.Machine.execI3cPrivateWrite data s
  | .i3cPrivateRead => Sys2Proof.Machine.execI3cPrivateRead s
  | .setdasa addr7 dyn => Sys2Proof.Machine.execSetdasa addr7 dyn s
  | .entdaa dyn => Sys2Proof.Machine.execEntdaa dyn s
  | .powerOnReset => Sys2Proof.Machine.execPowerOnReset s
  | .resetN low => Sys2Proof.Machine.execResetN low s
  | .pwrOkFall => Sys2Proof.Machine.execPwrOkFall s
  | .brownOut rail => Sys2Proof.Machine.execBrownOut rail s
  | .overvoltage rail => Sys2Proof.Machine.execOvervoltage rail s
  | .kindlingStart b => Sys2Proof.Machine.execKindlingStart b s
  | .startWatchdog => Sys2Proof.Machine.execStartWatchdog s
  | .confirmWatchdog => Sys2Proof.Machine.execConfirmWatchdog s
  | .announce => Sys2Proof.Machine.execAnnounce s
  | .header ip port seq data => Sys2Proof.Machine.execHeader ip port seq data s
  | .body ip port seq off data => Sys2Proof.Machine.execBody ip port seq off data s
  | .finish ip port seq b => Sys2Proof.Machine.execFinish ip port seq b s
  | .settings ip port seq data => Sys2Proof.Machine.execSettings ip port seq data s
  | .boot ip port seq b => Sys2Proof.Machine.execBoot ip port seq b s
  | .recoverySessionTimeout => Sys2Proof.Machine.execRecoverySessionTimeout s
  | .recoveryTimeout b => Sys2Proof.Machine.execRecoveryTimeout b s
  | .aliveToggle => Sys2Proof.Machine.execAliveToggle s
  | .powerSample watts => Sys2Proof.Machine.execPowerSample watts s
  | .powerLoop => Sys2Proof.Machine.execPowerLoop s
  | .sensorSample temps => Sys2Proof.Machine.execSensorSample temps s
  | .thermalStep die rise => Sys2Proof.Machine.execThermalStep die rise s
  | .supplyDip rail mv => Sys2Proof.Machine.execSupplyDip rail mv s
  | .dipDecay die => Sys2Proof.Machine.execDipDecay die s
  | .refClkLoss => Sys2Proof.Machine.execRefClkLoss s
  | .lrefLoss east => Sys2Proof.Machine.execLrefLoss east s
  | .pcieRefclkLoss => Sys2Proof.Machine.execPcieRefclkLoss s
  | .trefLoss => Sys2Proof.Machine.execTrefLoss s
  | .cellRestoreComplete job cell => Sys2Proof.Machine.execCellRestoreComplete job cell s
  | .railReturnAboveWarning rail => Sys2Proof.Machine.execRailReturnAboveWarning rail s
  | .refClkReturn => Sys2Proof.Machine.execRefClkReturn s
  | .flashOperationComplete => Sys2Proof.Machine.execFlashOperationComplete s

end Sys2Proof.Machine
end

