-- ==== Sys2Proof/WellFormed.lean ====
section
/-! DEFINITION. Well-formed commands: every operand fits the field that carries it (the opcode table; R265, R294, R350, R362, R363, R374, R465).
A meaning does not rest on it: a value the device itself checks is checked by the meaning. -/

namespace Sys2Proof

/-- A command header's fields fit (R350). -/
def Hdr.wf (h : Hdr) : Bool :=
  decide (h.ring < 64) && decide (h.tag < 2 ^ 32) && decide (h.job < 8) && h.rt.all (fun t => decide (t < 2 ^ 64)) &&
    h.dl.all (fun t => decide (t < 2 ^ 32))

/-- The parameters of JOB_LOAD fit (R363). -/
def JobLoad.wf (p : JobLoad) : Bool :=
  decide (p.program < 2 ^ 64) && decide (p.seed < 2 ^ 64) && decide (p.argument < 2 ^ 64) &&
    ([p.gx, p.gy, p.flags, p.leads, p.ox, p.oy, p.oz, p.ex, p.ey, p.ez].all fun v => decide (v < 256)) && decide (p.priority < 4) &&
    decide (p.jobTag < 2 ^ 16) && decide (p.leadCells.length ≤ 16) && p.leadCells.all (fun v => decide (v < 2 ^ 16))

/-- The parameters of OBJ_MAP fit (R362). -/
def ObjMap.wf (p : ObjMap) : Bool :=
  decide (p.first < 2 ^ 64) && ([p.count, p.rows, p.cols].all fun v => decide (v < 2 ^ 32)) &&
    ([p.layout, p.fmt, p.block, p.group, p.flags].all fun v => decide (v < 256))

/-- The parameters of SNAPSHOT, RESTORE and ADOPT fit (R362). -/
def SnapSrc.wf (p : SnapSrc) : Bool :=
  decide (p.id < 2 ^ 32) && ([p.dests, p.bx, p.bY, p.bz, p.ctrl].all fun v => decide (v < 256)) && decide (p.ns < 2 ^ 32) &&
    decide (p.lba < 2 ^ 64)

/-- What a boot finds is a device's: 16 channels, 12 stacks, 4 controllers (R216, R232, R233, R414). -/
def BootEnv.wf (b : BootEnv) : Bool :=
  b.modules.all (fun m => decide (m.ch < 16)) && decide (b.hbms < 2 ^ 12) && decide (b.nvme < 16)

/-- A command's operands fit its fields. -/
def Instr.wf : Instr → Bool
  | .bundleIssue lcn => decide (lcn < 576)
  | .nop lcn => decide (lcn < 576)
  | .add lcn _ _ _ => decide (lcn < 576)
  | .sub lcn _ _ _ => decide (lcn < 576)
  | .andOp lcn _ _ _ => decide (lcn < 576)
  | .orOp lcn _ _ _ => decide (lcn < 576)
  | .xor lcn _ _ _ => decide (lcn < 576)
  | .shl lcn _ _ _ => decide (lcn < 576)
  | .shr lcn _ _ _ => decide (lcn < 576)
  | .sra lcn _ _ _ => decide (lcn < 576)
  | .mul lcn _ _ _ => decide (lcn < 576)
  | .min lcn _ _ _ => decide (lcn < 576)
  | .max lcn _ _ _ => decide (lcn < 576)
  | .addi lcn _ _ _ => decide (lcn < 576)
  | .subi lcn _ _ _ => decide (lcn < 576)
  | .andi lcn _ _ _ => decide (lcn < 576)
  | .ori lcn _ _ _ => decide (lcn < 576)
  | .xori lcn _ _ _ => decide (lcn < 576)
  | .shli lcn _ _ _ => decide (lcn < 576)
  | .shri lcn _ _ _ => decide (lcn < 576)
  | .srai lcn _ _ _ => decide (lcn < 576)
  | .muli lcn _ _ _ => decide (lcn < 576)
  | .mini lcn _ _ _ => decide (lcn < 576)
  | .maxi lcn _ _ _ => decide (lcn < 576)
  | .li lcn _ _ => decide (lcn < 576)
  | .lih lcn _ _ _ => decide (lcn < 576)
  | .lcSet lcn _ _ => decide (lcn < 576)
  | .lcAdd lcn _ _ => decide (lcn < 576)
  | .lcMov lcn _ _ => decide (lcn < 576)
  | .movC lcn _ _ => decide (lcn < 576)
  | .cmp lcn _ _ _ _ => decide (lcn < 576)
  | .cmpi lcn _ _ _ _ => decide (lcn < 576)
  | .kop lcn _ _ _ _ => decide (lcn < 576)
  | .br lcn _ => decide (lcn < 576)
  | .brK lcn _ _ _ => decide (lcn < 576)
  | .brC lcn _ _ => decide (lcn < 576)
  | .semInc lcn _ _ => decide (lcn < 576)
  | .semSet lcn _ _ => decide (lcn < 576)
  | .semW lcn _ _ _ => decide (lcn < 576)
  | .waitT lcn _ => decide (lcn < 576)
  | .timeRd lcn _ => decide (lcn < 576)
  | .mark lcn _ _ => decide (lcn < 576)
  | .dmai lcn _ _ => decide (lcn < 576)
  | .scaleDn lcn _ _ _ => decide (lcn < 576)
  | .flagK lcn _ => decide (lcn < 576)
  | .flagClr lcn => decide (lcn < 576)
  | .endOp lcn => decide (lcn < 576)
  | .coreComplete lcn => decide (lcn < 576)
  | .ldB lcn _ _ _ => decide (lcn < 576)
  | .ldH lcn _ _ _ => decide (lcn < 576)
  | .ldW lcn _ _ _ => decide (lcn < 576)
  | .ldD lcn _ _ _ => decide (lcn < 576)
  | .stB lcn _ _ _ => decide (lcn < 576)
  | .stH lcn _ _ _ => decide (lcn < 576)
  | .stW lcn _ _ _ => decide (lcn < 576)
  | .stD lcn _ _ _ => decide (lcn < 576)
  | .faddD lcn _ _ _ => decide (lcn < 576)
  | .fsubD lcn _ _ _ => decide (lcn < 576)
  | .fmulD lcn _ _ _ => decide (lcn < 576)
  | .fmaD lcn _ _ _ _ => decide (lcn < 576)
  | .fdivD lcn _ _ _ => decide (lcn < 576)
  | .fsqrtD lcn _ _ => decide (lcn < 576)
  | .fcmpD lcn _ _ _ _ => decide (lcn < 576)
  | .cvtDL lcn _ _ => decide (lcn < 576)
  | .cvtLD lcn _ _ => decide (lcn < 576)
  | .cvtDF lcn _ _ => decide (lcn < 576)
  | .cvtFD lcn _ _ => decide (lcn < 576)
  | .brI lcn _ => decide (lcn < 576)
  | .call lcn _ => decide (lcn < 576)
  | .ret lcn => decide (lcn < 576)
  | .tcfg lcn _ _ _ => decide (lcn < 576)
  | .tcfgRelease lcn _ => decide (lcn < 576)
  | .lds lcn _ _ _ _ _ => decide (lcn < 576)
  | .ldsT lcn _ _ _ _ _ => decide (lcn < 576)
  | .swap lcn => decide (lcn < 576)
  | .mma lcn _ _ _ _ => decide (lcn < 576)
  | .mmaT lcn _ _ _ _ => decide (lcn < 576)
  | .mwait lcn _ _ _ => decide (lcn < 576)
  | .passStart lcn => decide (lcn < 576)
  | .passCommit lcn => decide (lcn < 576)
  | .vopAdd lcn _ _ _ _ => decide (lcn < 576)
  | .vopSub lcn _ _ _ _ => decide (lcn < 576)
  | .vopMul lcn _ _ _ _ => decide (lcn < 576)
  | .vopFma lcn _ _ _ _ => decide (lcn < 576)
  | .vopMax lcn _ _ _ _ => decide (lcn < 576)
  | .vopMin lcn _ _ _ _ => decide (lcn < 576)
  | .vopAbs lcn _ _ _ _ => decide (lcn < 576)
  | .vopNeg lcn _ _ _ _ => decide (lcn < 576)
  | .vopExp lcn _ _ _ _ => decide (lcn < 576)
  | .vopLog lcn _ _ _ _ => decide (lcn < 576)
  | .vopRecip lcn _ _ _ _ => decide (lcn < 576)
  | .vopRsqrt lcn _ _ _ _ => decide (lcn < 576)
  | .vopTanh lcn _ _ _ _ => decide (lcn < 576)
  | .vopMov lcn _ _ _ _ => decide (lcn < 576)
  | .vredSum lcn _ _ _ _ _ => decide (lcn < 576)
  | .vredMax lcn _ _ _ _ _ => decide (lcn < 576)
  | .vredSsq lcn _ _ _ _ _ => decide (lcn < 576)
  | .vredDot lcn _ _ _ _ _ => decide (lcn < 576)
  | .vredSSum lcn _ _ _ _ => decide (lcn < 576)
  | .vredSMax lcn _ _ _ _ => decide (lcn < 576)
  | .vredSSsq lcn _ _ _ _ => decide (lcn < 576)
  | .vredSDot lcn _ _ _ _ => decide (lcn < 576)
  | .cvt lcn _ _ _ _ _ => decide (lcn < 576)
  | .rng lcn _ _ _ => decide (lcn < 576)
  | .updc lcn _ _ _ _ => decide (lcn < 576)
  | .vsig lcn _ _ => decide (lcn < 576)
  | .vwait lcn _ _ _ => decide (lcn < 576)
  | .tld lcn _ _ => decide (lcn < 576)
  | .tst lcn _ _ => decide (lcn < 576)
  | .ard lcn _ _ _ _ _ => decide (lcn < 576)
  | .resultLand lcn => decide (lcn < 576)
  | .semaphoreUpdate lcn => decide (lcn < 576)
  | .waiterWake lcn eng => decide (lcn < 576) && decide (eng < 4)
  | .waitTResume lcn => decide (lcn < 576)
  | .descriptorStart lcn => decide (lcn < 576)
  | .runAheadTouch lcn _ => decide (lcn < 576)
  | .sliceRequest lcn slot err => decide (lcn < 576) && decide (slot < 1024) && decide (err < 3)
  | .requestFailed lcn slot => decide (lcn < 576) && decide (slot < 1024)
  | .writeAck lcn slot => decide (lcn < 576) && decide (slot < 1024)
  | .itemComplete lcn _ => decide (lcn < 576)
  | .itemDeadline lcn _ => decide (lcn < 576)
  | .creditGrant lcn => decide (lcn < 576)
  | .arrivalLand lcn => decide (lcn < 576)
  | .moveStart mover => decide (mover < 4)
  | .moveCommit _ _ => true
  | .cowCommit _ => true
  | .patrolScrub _ slice addr err => decide (slice < 192) && decide (addr < 2 ^ 64) && decide (err < 3)
  | .heartStackFailure stack => decide (stack < 12)
  | .tick => true
  | .commandRelease _ => true
  | .commandDeadline _ => true
  | .fencedCommandEffect _ => true
  | .jobLoad h p => h.wf && p.wf
  | .jobPlace => true
  | .jobStart h => h.wf
  | .jobPreempt h => h.wf
  | .stopRequest lcn => decide (lcn < 576)
  | .coreSaveDone lcn => decide (lcn < 576)
  | .jobResume h => h.wf
  | .jobUnload h => h.wf
  | .jobReset h => h.wf
  | .cellReplace h cell => h.wf && decide (cell < 2 ^ 16)
  | .mcastSet h group count addr => h.wf && decide (group < 256) && decide (count < 2 ^ 16) && decide (addr < 2 ^ 64)
  | .objMap h p => h.wf && p.wf
  | .objUnmap h obj => h.wf && decide (obj < 2 ^ 16)
  | .placeRise h obj first count => h.wf && decide (obj < 2 ^ 16) && decide (first < 2 ^ 32) && decide (count < 2 ^ 32)
  | .placeSink h obj first count => h.wf && decide (obj < 2 ^ 16) && decide (first < 2 ^ 32) && decide (count < 2 ^ 32)
  | .pin h obj => h.wf && decide (obj < 2 ^ 16)
  | .unpin h obj => h.wf && decide (obj < 2 ^ 16)
  | .winSet h win addr => h.wf && decide (win < 256) && decide (addr < 2 ^ 64)
  | .winStart h win => h.wf && decide (win < 256)
  | .winStop h win => h.wf && decide (win < 256)
  | .windowCursorAdvance job win _ => decide (job < 8) && decide (win < 32)
  | .windowLateRecord job win _ => decide (job < 8) && decide (win < 32)
  | .windowRestart job win => decide (job < 8) && decide (win < 32)
  | .snapshot h p => h.wf && p.wf
  | .drainCheck job => decide (job < 8)
  | .epochAdvance job => decide (job < 8)
  | .stopEnd job => decide (job < 8)
  | .stopBound job => decide (job < 8)
  | .imageTaken job _ _ _ => decide (job < 8)
  | .buddyImageReceive x y z tag _ _ _ => decide (x < 256) && decide (y < 256) && decide (z < 256) && decide (tag < 2 ^ 16)
  | .nvmeCompletion job _ => decide (job < 8)
  | .nvmeTimeout job => decide (job < 8)
  | .restore h p => h.wf && p.wf
  | .restoreImage job _ _ => decide (job < 8)
  | .adopt h p fx fy fz => h.wf && p.wf && decide (fx < 256) && decide (fy < 256) && decide (fz < 256)
  | .boundedLoss h n => h.wf && decide (n < 2 ^ 16)
  | .collRun h addr => h.wf && decide (addr < 2 ^ 64)
  | .collData ring tag axis pos _ => decide (ring < 64) && decide (tag < 2 ^ 32) && decide (axis < 3) && decide (pos < 256)
  | .collCtrl ring tag => decide (ring < 64) && decide (tag < 2 ^ 32)
  | .globalNormPoll ring tag => decide (ring < 64) && decide (tag < 2 ^ 32)
  | .collComplete ring tag => decide (ring < 64) && decide (tag < 2 ^ 32)
  | .fabricConfig h addr => h.wf && decide (addr < 2 ^ 64)
  | .linkEnable h link => h.wf && decide (link < 256)
  | .linkDisable h link => h.wf && decide (link < 256)
  | .linkDisableStop link => decide (link < 36)
  | .setLinkShares h coll bulk => h.wf && decide (coll < 256) && decide (bulk < 256)
  | .setFlueShares h sel demand move ember coll control => h.wf && decide (sel < 256) && decide (demand < 256) && decide (move < 256) && decide (ember < 256) && decide (coll < 256) && decide (control < 256)
  | .releaseCancel h ring tag => h.wf && decide (ring < 256) && decide (tag < 2 ^ 32)
  | .traceConfig h die mode post size => h.wf && decide (die < 256) && decide (mode < 256) && decide (post < 256) && decide (size < 2 ^ 32)
  | .traceTrigger h mask => h.wf && decide (mask < 256)
  | .counterSelect h cell counter event => h.wf && decide (cell < 2 ^ 16) && decide (counter < 256) && decide (event < 2 ^ 16)
  | .captureSet h slot engine addr => h.wf && decide (slot < 256) && decide (engine < 256) && decide (addr < 2 ^ 64)
  | .captureClear h slot => h.wf && decide (slot < 256)
  | .captureStart job slot engine => decide (job < 8) && decide (slot < 64) && decide (engine < 2)
  | .captureComplete job slot => decide (job < 8) && decide (slot < 64)
  | .ashClear h auth => h.wf && auth.length == 128
  | .ringCreate h ring sz c subBase cmpBase => h.wf && decide (ring < 256) && decide (sz < 256) && decide (c < 256) && decide (subBase < 2 ^ 64) && decide (cmpBase < 2 ^ 64)
  | .ringDelete h ring => h.wf && decide (ring < 256)
  | .fwStageHeader h off len src _ => h.wf && decide (off < 2 ^ 32) && decide (len < 2 ^ 32) && decide (src < 2 ^ 64)
  | .fwStageBody h off len src _ => h.wf && decide (off < 2 ^ 32) && decide (len < 2 ^ 32) && decide (src < 2 ^ 64)
  | .fwStageFinish h => h.wf
  | .fwConfirm h => h.wf
  | .fenceClear h phys auth => h.wf && decide (phys < 2 ^ 16) && auth.length == 128
  | .deviceReset h force => h.wf && decide (force < 256)
  | .powerLimit h watts => h.wf && decide (watts < 2 ^ 16)
  | .placeQuery h obj first count buf => h.wf && decide (obj < 2 ^ 16) && decide (first < 2 ^ 32) && decide (count < 2 ^ 32) && decide (buf < 2 ^ 64)
  | .jobQuery h buf => h.wf && decide (buf < 2 ^ 64)
  | .timeQuery h => h.wf
  | .regRead h addr words buf => h.wf && decide (addr < 2 ^ 64) && decide (words < 256) && decide (buf < 2 ^ 64)
  | .snapQuery h buf => h.wf && decide (buf < 2 ^ 64)
  | .ringQuery h ring => h.wf && decide (ring < 256)
  | .mgmtDatagram ip port data => decide (ip < 2 ^ 32) && decide (port < 2 ^ 16) && decide (data.length ≤ 4104)
  | .controlMsg x y z jobTag data => decide (x < 256) && decide (y < 256) && decide (z < 256) && decide (jobTag < 2 ^ 16) && decide (data.length ≤ 4096)
  | .arpRequest target => decide (target < 2 ^ 32)
  | .icmpEcho dst _ => decide (dst < 2 ^ 32)
  | .ptpMessage gmTime => decide (gmTime < 2 ^ 64)
  | .flitReceive link flit _ => decide (link < 36) && flit.length == 256
  | .nak link seq => decide (link < 36) && decide (seq < 4096)
  | .linkSilence link => decide (link < 36)
  | .retrainDone link => decide (link < 36)
  | .retrainTimeout link => decide (link < 36)
  | .detectSignal link => decide (link < 36)
  | .detectTimeout link => decide (link < 36)
  | .trainDone link => decide (link < 36)
  | .trainTimeout link => decide (link < 36)
  | .negotiateDone link px py pz plink pgroup serial => decide (link < 36) && decide (px < 256) && decide (py < 256) && decide (pz < 256) && decide (plink < 36) && decide (pgroup < 8) && decide (serial < 2 ^ 64)
  | .write x y z word jobTag data _ _ sem => decide (x < 256) && decide (y < 256) && decide (z < 256) && decide (word < 2 ^ 64) && decide (jobTag < 2 ^ 16) && decide (data.length ≤ 256) && decide (sem < 64)
  | .undeliverable x y z => decide (x < 256) && decide (y < 256) && decide (z < 256)
  | .writeAckTimeout x y z => decide (x < 256) && decide (y < 256) && decide (z < 256)
  | .timeSym link tTx roundPs turnPs hops master => decide (link < 36) && decide (tTx < 2 ^ 64) && decide (roundPs < 2 ^ 32) && decide (turnPs < 2 ^ 32) && decide (hops < 256) && decide (master < 2 ^ 16)
  | .timeSymSend link => decide (link < 36)
  | .holdoverEntry => true
  | .unlockedEntry => true
  | .standbyTakeover => true
  | .ppsMark => true
  | .sourceLoss => true
  | .sourceReturn => true
  | .coreFault lcn code unit => decide (lcn < 576) && decide (code < 256) && decide (unit < 2 ^ 32)
  | .routerFault lcn => decide (lcn < 576)
  | .moverFault mover => decide (mover < 4)
  | .engineFault kind num => decide (kind < 4) && decide (num < 8)
  | .wardenHeartbeat warden => decide (warden < 20)
  | .wardenFault warden cause => decide (warden < 20) && decide (cause < 256)
  | .deviceFatal code die unit => decide (code < 256) && decide (die < 2 ^ 32) && decide (unit < 2 ^ 32)
  | .traceRecordWrite die lcn => decide (lcn < 576) && decide (die < 6)
  | .ashFlashCopy => true
  | .ashViewWrite => true
  | .evtRfRead lcn => decide (lcn < 576)
  | .devRfRead k => decide (k < 4)
  | .registerWrite addr width value => decide (addr < 2 ^ 64) && decide (width < 9) && decide (value < 2 ^ 64)
  | .hostAccess _ addr width _ err => decide (addr < 2 ^ 64) && decide (width < 9) && decide (err < 3)
  | .pcieInbound _ _ addr _ _ err => decide (addr < 2 ^ 64) && decide (err < 3)
  | .i3cPrivateWrite _ => true
  | .i3cPrivateRead => true
  | .setdasa addr7 dyn => decide (addr7 < 128) && decide (dyn < 128)
  | .entdaa dyn => decide (dyn < 128)
  | .powerOnReset => true
  | .resetN _ => true
  | .pwrOkFall => true
  | .brownOut rail => decide (rail < 11)
  | .overvoltage rail => decide (rail < 11)
  | .kindlingStart b => b.wf
  | .startWatchdog => true
  | .confirmWatchdog => true
  | .announce => true
  | .header ip port seq data => decide (ip < 2 ^ 32) && decide (port < 2 ^ 16) && decide (seq < 2 ^ 32) && data.length == 512
  | .body ip port seq off data => decide (ip < 2 ^ 32) && decide (port < 2 ^ 16) && decide (seq < 2 ^ 32) && decide (off < 2 ^ 32) && decide (data.length ≤ 1024)
  | .finish ip port seq b => decide (ip < 2 ^ 32) && decide (port < 2 ^ 16) && decide (seq < 2 ^ 32) && b.wf
  | .settings ip port seq data => decide (ip < 2 ^ 32) && decide (port < 2 ^ 16) && decide (seq < 2 ^ 32) && data.length == 256
  | .boot ip port seq b => decide (ip < 2 ^ 32) && decide (port < 2 ^ 16) && decide (seq < 2 ^ 32) && b.wf
  | .recoverySessionTimeout => true
  | .recoveryTimeout b => b.wf
  | .aliveToggle => true
  | .powerSample _ => true
  | .powerLoop => true
  | .sensorSample temps => temps.length == 72
  | .thermalStep die _ => decide (die < 4)
  | .supplyDip rail mv => decide (rail < 11) && decide (mv < 2 ^ 16)
  | .dipDecay die => decide (die < 4)
  | .refClkLoss => true
  | .lrefLoss _ => true
  | .pcieRefclkLoss => true
  | .trefLoss => true
  | .cellRestoreComplete job cell => decide (job < 8) && decide (cell < 4096)
  | .railReturnAboveWarning rail => decide (rail < 11)
  | .refClkReturn => true
  | .flashOperationComplete => true

/-- The core a command names (R18). -/
def Instr.namedCore : Instr → Option Nat
  | .bundleIssue lcn => some lcn
  | .nop lcn => some lcn
  | .add lcn _ _ _ => some lcn
  | .sub lcn _ _ _ => some lcn
  | .andOp lcn _ _ _ => some lcn
  | .orOp lcn _ _ _ => some lcn
  | .xor lcn _ _ _ => some lcn
  | .shl lcn _ _ _ => some lcn
  | .shr lcn _ _ _ => some lcn
  | .sra lcn _ _ _ => some lcn
  | .mul lcn _ _ _ => some lcn
  | .min lcn _ _ _ => some lcn
  | .max lcn _ _ _ => some lcn
  | .addi lcn _ _ _ => some lcn
  | .subi lcn _ _ _ => some lcn
  | .andi lcn _ _ _ => some lcn
  | .ori lcn _ _ _ => some lcn
  | .xori lcn _ _ _ => some lcn
  | .shli lcn _ _ _ => some lcn
  | .shri lcn _ _ _ => some lcn
  | .srai lcn _ _ _ => some lcn
  | .muli lcn _ _ _ => some lcn
  | .mini lcn _ _ _ => some lcn
  | .maxi lcn _ _ _ => some lcn
  | .li lcn _ _ => some lcn
  | .lih lcn _ _ _ => some lcn
  | .lcSet lcn _ _ => some lcn
  | .lcAdd lcn _ _ => some lcn
  | .lcMov lcn _ _ => some lcn
  | .movC lcn _ _ => some lcn
  | .cmp lcn _ _ _ _ => some lcn
  | .cmpi lcn _ _ _ _ => some lcn
  | .kop lcn _ _ _ _ => some lcn
  | .br lcn _ => some lcn
  | .brK lcn _ _ _ => some lcn
  | .brC lcn _ _ => some lcn
  | .semInc lcn _ _ => some lcn
  | .semSet lcn _ _ => some lcn
  | .semW lcn _ _ _ => some lcn
  | .waitT lcn _ => some lcn
  | .timeRd lcn _ => some lcn
  | .mark lcn _ _ => some lcn
  | .dmai lcn _ _ => some lcn
  | .scaleDn lcn _ _ _ => some lcn
  | .flagK lcn _ => some lcn
  | .flagClr lcn => some lcn
  | .endOp lcn => some lcn
  | .coreComplete lcn => some lcn
  | .ldB lcn _ _ _ => some lcn
  | .ldH lcn _ _ _ => some lcn
  | .ldW lcn _ _ _ => some lcn
  | .ldD lcn _ _ _ => some lcn
  | .stB lcn _ _ _ => some lcn
  | .stH lcn _ _ _ => some lcn
  | .stW lcn _ _ _ => some lcn
  | .stD lcn _ _ _ => some lcn
  | .faddD lcn _ _ _ => some lcn
  | .fsubD lcn _ _ _ => some lcn
  | .fmulD lcn _ _ _ => some lcn
  | .fmaD lcn _ _ _ _ => some lcn
  | .fdivD lcn _ _ _ => some lcn
  | .fsqrtD lcn _ _ => some lcn
  | .fcmpD lcn _ _ _ _ => some lcn
  | .cvtDL lcn _ _ => some lcn
  | .cvtLD lcn _ _ => some lcn
  | .cvtDF lcn _ _ => some lcn
  | .cvtFD lcn _ _ => some lcn
  | .brI lcn _ => some lcn
  | .call lcn _ => some lcn
  | .ret lcn => some lcn
  | .tcfg lcn _ _ _ => some lcn
  | .tcfgRelease lcn _ => some lcn
  | .lds lcn _ _ _ _ _ => some lcn
  | .ldsT lcn _ _ _ _ _ => some lcn
  | .swap lcn => some lcn
  | .mma lcn _ _ _ _ => some lcn
  | .mmaT lcn _ _ _ _ => some lcn
  | .mwait lcn _ _ _ => some lcn
  | .passStart lcn => some lcn
  | .passCommit lcn => some lcn
  | .vopAdd lcn _ _ _ _ => some lcn
  | .vopSub lcn _ _ _ _ => some lcn
  | .vopMul lcn _ _ _ _ => some lcn
  | .vopFma lcn _ _ _ _ => some lcn
  | .vopMax lcn _ _ _ _ => some lcn
  | .vopMin lcn _ _ _ _ => some lcn
  | .vopAbs lcn _ _ _ _ => some lcn
  | .vopNeg lcn _ _ _ _ => some lcn
  | .vopExp lcn _ _ _ _ => some lcn
  | .vopLog lcn _ _ _ _ => some lcn
  | .vopRecip lcn _ _ _ _ => some lcn
  | .vopRsqrt lcn _ _ _ _ => some lcn
  | .vopTanh lcn _ _ _ _ => some lcn
  | .vopMov lcn _ _ _ _ => some lcn
  | .vredSum lcn _ _ _ _ _ => some lcn
  | .vredMax lcn _ _ _ _ _ => some lcn
  | .vredSsq lcn _ _ _ _ _ => some lcn
  | .vredDot lcn _ _ _ _ _ => some lcn
  | .vredSSum lcn _ _ _ _ => some lcn
  | .vredSMax lcn _ _ _ _ => some lcn
  | .vredSSsq lcn _ _ _ _ => some lcn
  | .vredSDot lcn _ _ _ _ => some lcn
  | .cvt lcn _ _ _ _ _ => some lcn
  | .rng lcn _ _ _ => some lcn
  | .updc lcn _ _ _ _ => some lcn
  | .vsig lcn _ _ => some lcn
  | .vwait lcn _ _ _ => some lcn
  | .tld lcn _ _ => some lcn
  | .tst lcn _ _ => some lcn
  | .ard lcn _ _ _ _ _ => some lcn
  | .resultLand lcn => some lcn
  | .semaphoreUpdate lcn => some lcn
  | .waiterWake lcn _ => some lcn
  | .waitTResume lcn => some lcn
  | .descriptorStart lcn => some lcn
  | .runAheadTouch lcn _ => some lcn
  | .sliceRequest lcn _ _ => some lcn
  | .requestFailed lcn _ => some lcn
  | .writeAck lcn _ => some lcn
  | .itemComplete lcn _ => some lcn
  | .itemDeadline lcn _ => some lcn
  | .creditGrant lcn => some lcn
  | .arrivalLand lcn => some lcn
  | .moveStart _ => none
  | .moveCommit _ _ => none
  | .cowCommit _ => none
  | .patrolScrub _ _ _ _ => none
  | .heartStackFailure _ => none
  | .tick => none
  | .commandRelease _ => none
  | .commandDeadline _ => none
  | .fencedCommandEffect _ => none
  | .jobLoad _ _ => none
  | .jobPlace => none
  | .jobStart _ => none
  | .jobPreempt _ => none
  | .stopRequest lcn => some lcn
  | .coreSaveDone lcn => some lcn
  | .jobResume _ => none
  | .jobUnload _ => none
  | .jobReset _ => none
  | .cellReplace _ _ => none
  | .mcastSet _ _ _ _ => none
  | .objMap _ _ => none
  | .objUnmap _ _ => none
  | .placeRise _ _ _ _ => none
  | .placeSink _ _ _ _ => none
  | .pin _ _ => none
  | .unpin _ _ => none
  | .winSet _ _ _ => none
  | .winStart _ _ => none
  | .winStop _ _ => none
  | .windowCursorAdvance _ _ _ => none
  | .windowLateRecord _ _ _ => none
  | .windowRestart _ _ => none
  | .snapshot _ _ => none
  | .drainCheck _ => none
  | .epochAdvance _ => none
  | .stopEnd _ => none
  | .stopBound _ => none
  | .imageTaken _ _ _ _ => none
  | .buddyImageReceive _ _ _ _ _ _ _ => none
  | .nvmeCompletion _ _ => none
  | .nvmeTimeout _ => none
  | .restore _ _ => none
  | .restoreImage _ _ _ => none
  | .adopt _ _ _ _ _ => none
  | .boundedLoss _ _ => none
  | .collRun _ _ => none
  | .collData _ _ _ _ _ => none
  | .collCtrl _ _ => none
  | .globalNormPoll _ _ => none
  | .collComplete _ _ => none
  | .fabricConfig _ _ => none
  | .linkEnable _ _ => none
  | .linkDisable _ _ => none
  | .linkDisableStop _ => none
  | .setLinkShares _ _ _ => none
  | .setFlueShares _ _ _ _ _ _ _ => none
  | .releaseCancel _ _ _ => none
  | .traceConfig _ _ _ _ _ => none
  | .traceTrigger _ _ => none
  | .counterSelect _ _ _ _ => none
  | .captureSet _ _ _ _ => none
  | .captureClear _ _ => none
  | .captureStart _ _ _ => none
  | .captureComplete _ _ => none
  | .ashClear _ _ => none
  | .ringCreate _ _ _ _ _ _ => none
  | .ringDelete _ _ => none
  | .fwStageHeader _ _ _ _ _ => none
  | .fwStageBody _ _ _ _ _ => none
  | .fwStageFinish _ => none
  | .fwConfirm _ => none
  | .fenceClear _ _ _ => none
  | .deviceReset _ _ => none
  | .powerLimit _ _ => none
  | .placeQuery _ _ _ _ _ => none
  | .jobQuery _ _ => none
  | .timeQuery _ => none
  | .regRead _ _ _ _ => none
  | .snapQuery _ _ => none
  | .ringQuery _ _ => none
  | .mgmtDatagram _ _ _ => none
  | .controlMsg _ _ _ _ _ => none
  | .arpRequest _ => none
  | .icmpEcho _ _ => none
  | .ptpMessage _ => none
  | .flitReceive _ _ _ => none
  | .nak _ _ => none
  | .linkSilence _ => none
  | .retrainDone _ => none
  | .retrainTimeout _ => none
  | .detectSignal _ => none
  | .detectTimeout _ => none
  | .trainDone _ => none
  | .trainTimeout _ => none
  | .negotiateDone _ _ _ _ _ _ _ => none
  | .write _ _ _ _ _ _ _ _ _ => none
  | .undeliverable _ _ _ => none
  | .writeAckTimeout _ _ _ => none
  | .timeSym _ _ _ _ _ _ => none
  | .timeSymSend _ => none
  | .holdoverEntry => none
  | .unlockedEntry => none
  | .standbyTakeover => none
  | .ppsMark => none
  | .sourceLoss => none
  | .sourceReturn => none
  | .coreFault lcn _ _ => some lcn
  | .routerFault lcn => some lcn
  | .moverFault _ => none
  | .engineFault _ _ => none
  | .wardenHeartbeat _ => none
  | .wardenFault _ _ => none
  | .deviceFatal _ _ _ => none
  | .traceRecordWrite _ lcn => some lcn
  | .ashFlashCopy => none
  | .ashViewWrite => none
  | .evtRfRead lcn => some lcn
  | .devRfRead _ => none
  | .registerWrite _ _ _ => none
  | .hostAccess _ _ _ _ _ => none
  | .pcieInbound _ _ _ _ _ _ => none
  | .i3cPrivateWrite _ => none
  | .i3cPrivateRead => none
  | .setdasa _ _ => none
  | .entdaa _ => none
  | .powerOnReset => none
  | .resetN _ => none
  | .pwrOkFall => none
  | .brownOut _ => none
  | .overvoltage _ => none
  | .kindlingStart _ => none
  | .startWatchdog => none
  | .confirmWatchdog => none
  | .announce => none
  | .header _ _ _ _ => none
  | .body _ _ _ _ _ => none
  | .finish _ _ _ _ => none
  | .settings _ _ _ _ => none
  | .boot _ _ _ _ => none
  | .recoverySessionTimeout => none
  | .recoveryTimeout _ => none
  | .aliveToggle => none
  | .powerSample _ => none
  | .powerLoop => none
  | .sensorSample _ => none
  | .thermalStep _ _ => none
  | .supplyDip _ _ => none
  | .dipDecay _ => none
  | .refClkLoss => none
  | .lrefLoss _ => none
  | .pcieRefclkLoss => none
  | .trefLoss => none
  | .cellRestoreComplete _ _ => none
  | .railReturnAboveWarning _ => none
  | .refClkReturn => none
  | .flashOperationComplete => none

/-- The header of a firmware command (R350); the other commands have none. -/
def Instr.header? : Instr → Option Hdr
  | .bundleIssue _ => none
  | .nop _ => none
  | .add _ _ _ _ => none
  | .sub _ _ _ _ => none
  | .andOp _ _ _ _ => none
  | .orOp _ _ _ _ => none
  | .xor _ _ _ _ => none
  | .shl _ _ _ _ => none
  | .shr _ _ _ _ => none
  | .sra _ _ _ _ => none
  | .mul _ _ _ _ => none
  | .min _ _ _ _ => none
  | .max _ _ _ _ => none
  | .addi _ _ _ _ => none
  | .subi _ _ _ _ => none
  | .andi _ _ _ _ => none
  | .ori _ _ _ _ => none
  | .xori _ _ _ _ => none
  | .shli _ _ _ _ => none
  | .shri _ _ _ _ => none
  | .srai _ _ _ _ => none
  | .muli _ _ _ _ => none
  | .mini _ _ _ _ => none
  | .maxi _ _ _ _ => none
  | .li _ _ _ => none
  | .lih _ _ _ _ => none
  | .lcSet _ _ _ => none
  | .lcAdd _ _ _ => none
  | .lcMov _ _ _ => none
  | .movC _ _ _ => none
  | .cmp _ _ _ _ _ => none
  | .cmpi _ _ _ _ _ => none
  | .kop _ _ _ _ _ => none
  | .br _ _ => none
  | .brK _ _ _ _ => none
  | .brC _ _ _ => none
  | .semInc _ _ _ => none
  | .semSet _ _ _ => none
  | .semW _ _ _ _ => none
  | .waitT _ _ => none
  | .timeRd _ _ => none
  | .mark _ _ _ => none
  | .dmai _ _ _ => none
  | .scaleDn _ _ _ _ => none
  | .flagK _ _ => none
  | .flagClr _ => none
  | .endOp _ => none
  | .coreComplete _ => none
  | .ldB _ _ _ _ => none
  | .ldH _ _ _ _ => none
  | .ldW _ _ _ _ => none
  | .ldD _ _ _ _ => none
  | .stB _ _ _ _ => none
  | .stH _ _ _ _ => none
  | .stW _ _ _ _ => none
  | .stD _ _ _ _ => none
  | .faddD _ _ _ _ => none
  | .fsubD _ _ _ _ => none
  | .fmulD _ _ _ _ => none
  | .fmaD _ _ _ _ _ => none
  | .fdivD _ _ _ _ => none
  | .fsqrtD _ _ _ => none
  | .fcmpD _ _ _ _ _ => none
  | .cvtDL _ _ _ => none
  | .cvtLD _ _ _ => none
  | .cvtDF _ _ _ => none
  | .cvtFD _ _ _ => none
  | .brI _ _ => none
  | .call _ _ => none
  | .ret _ => none
  | .tcfg _ _ _ _ => none
  | .tcfgRelease _ _ => none
  | .lds _ _ _ _ _ _ => none
  | .ldsT _ _ _ _ _ _ => none
  | .swap _ => none
  | .mma _ _ _ _ _ => none
  | .mmaT _ _ _ _ _ => none
  | .mwait _ _ _ _ => none
  | .passStart _ => none
  | .passCommit _ => none
  | .vopAdd _ _ _ _ _ => none
  | .vopSub _ _ _ _ _ => none
  | .vopMul _ _ _ _ _ => none
  | .vopFma _ _ _ _ _ => none
  | .vopMax _ _ _ _ _ => none
  | .vopMin _ _ _ _ _ => none
  | .vopAbs _ _ _ _ _ => none
  | .vopNeg _ _ _ _ _ => none
  | .vopExp _ _ _ _ _ => none
  | .vopLog _ _ _ _ _ => none
  | .vopRecip _ _ _ _ _ => none
  | .vopRsqrt _ _ _ _ _ => none
  | .vopTanh _ _ _ _ _ => none
  | .vopMov _ _ _ _ _ => none
  | .vredSum _ _ _ _ _ _ => none
  | .vredMax _ _ _ _ _ _ => none
  | .vredSsq _ _ _ _ _ _ => none
  | .vredDot _ _ _ _ _ _ => none
  | .vredSSum _ _ _ _ _ => none
  | .vredSMax _ _ _ _ _ => none
  | .vredSSsq _ _ _ _ _ => none
  | .vredSDot _ _ _ _ _ => none
  | .cvt _ _ _ _ _ _ => none
  | .rng _ _ _ _ => none
  | .updc _ _ _ _ _ => none
  | .vsig _ _ _ => none
  | .vwait _ _ _ _ => none
  | .tld _ _ _ => none
  | .tst _ _ _ => none
  | .ard _ _ _ _ _ _ => none
  | .resultLand _ => none
  | .semaphoreUpdate _ => none
  | .waiterWake _ _ => none
  | .waitTResume _ => none
  | .descriptorStart _ => none
  | .runAheadTouch _ _ => none
  | .sliceRequest _ _ _ => none
  | .requestFailed _ _ => none
  | .writeAck _ _ => none
  | .itemComplete _ _ => none
  | .itemDeadline _ _ => none
  | .creditGrant _ => none
  | .arrivalLand _ => none
  | .moveStart _ => none
  | .moveCommit _ _ => none
  | .cowCommit _ => none
  | .patrolScrub _ _ _ _ => none
  | .heartStackFailure _ => none
  | .tick => none
  | .commandRelease _ => none
  | .commandDeadline _ => none
  | .fencedCommandEffect _ => none
  | .jobLoad h _ => some h
  | .jobPlace => none
  | .jobStart h => some h
  | .jobPreempt h => some h
  | .stopRequest _ => none
  | .coreSaveDone _ => none
  | .jobResume h => some h
  | .jobUnload h => some h
  | .jobReset h => some h
  | .cellReplace h _ => some h
  | .mcastSet h _ _ _ => some h
  | .objMap h _ => some h
  | .objUnmap h _ => some h
  | .placeRise h _ _ _ => some h
  | .placeSink h _ _ _ => some h
  | .pin h _ => some h
  | .unpin h _ => some h
  | .winSet h _ _ => some h
  | .winStart h _ => some h
  | .winStop h _ => some h
  | .windowCursorAdvance _ _ _ => none
  | .windowLateRecord _ _ _ => none
  | .windowRestart _ _ => none
  | .snapshot h _ => some h
  | .drainCheck _ => none
  | .epochAdvance _ => none
  | .stopEnd _ => none
  | .stopBound _ => none
  | .imageTaken _ _ _ _ => none
  | .buddyImageReceive _ _ _ _ _ _ _ => none
  | .nvmeCompletion _ _ => none
  | .nvmeTimeout _ => none
  | .restore h _ => some h
  | .restoreImage _ _ _ => none
  | .adopt h _ _ _ _ => some h
  | .boundedLoss h _ => some h
  | .collRun h _ => some h
  | .collData _ _ _ _ _ => none
  | .collCtrl _ _ => none
  | .globalNormPoll _ _ => none
  | .collComplete _ _ => none
  | .fabricConfig h _ => some h
  | .linkEnable h _ => some h
  | .linkDisable h _ => some h
  | .linkDisableStop _ => none
  | .setLinkShares h _ _ => some h
  | .setFlueShares h _ _ _ _ _ _ => some h
  | .releaseCancel h _ _ => some h
  | .traceConfig h _ _ _ _ => some h
  | .traceTrigger h _ => some h
  | .counterSelect h _ _ _ => some h
  | .captureSet h _ _ _ => some h
  | .captureClear h _ => some h
  | .captureStart _ _ _ => none
  | .captureComplete _ _ => none
  | .ashClear h _ => some h
  | .ringCreate h _ _ _ _ _ => some h
  | .ringDelete h _ => some h
  | .fwStageHeader h _ _ _ _ => some h
  | .fwStageBody h _ _ _ _ => some h
  | .fwStageFinish h => some h
  | .fwConfirm h => some h
  | .fenceClear h _ _ => some h
  | .deviceReset h _ => some h
  | .powerLimit h _ => some h
  | .placeQuery h _ _ _ _ => some h
  | .jobQuery h _ => some h
  | .timeQuery h => some h
  | .regRead h _ _ _ => some h
  | .snapQuery h _ => some h
  | .ringQuery h _ => some h
  | .mgmtDatagram _ _ _ => none
  | .controlMsg _ _ _ _ _ => none
  | .arpRequest _ => none
  | .icmpEcho _ _ => none
  | .ptpMessage _ => none
  | .flitReceive _ _ _ => none
  | .nak _ _ => none
  | .linkSilence _ => none
  | .retrainDone _ => none
  | .retrainTimeout _ => none
  | .detectSignal _ => none
  | .detectTimeout _ => none
  | .trainDone _ => none
  | .trainTimeout _ => none
  | .negotiateDone _ _ _ _ _ _ _ => none
  | .write _ _ _ _ _ _ _ _ _ => none
  | .undeliverable _ _ _ => none
  | .writeAckTimeout _ _ _ => none
  | .timeSym _ _ _ _ _ _ => none
  | .timeSymSend _ => none
  | .holdoverEntry => none
  | .unlockedEntry => none
  | .standbyTakeover => none
  | .ppsMark => none
  | .sourceLoss => none
  | .sourceReturn => none
  | .coreFault _ _ _ => none
  | .routerFault _ => none
  | .moverFault _ => none
  | .engineFault _ _ => none
  | .wardenHeartbeat _ => none
  | .wardenFault _ _ => none
  | .deviceFatal _ _ _ => none
  | .traceRecordWrite _ _ => none
  | .ashFlashCopy => none
  | .ashViewWrite => none
  | .evtRfRead _ => none
  | .devRfRead _ => none
  | .registerWrite _ _ _ => none
  | .hostAccess _ _ _ _ _ => none
  | .pcieInbound _ _ _ _ _ _ => none
  | .i3cPrivateWrite _ => none
  | .i3cPrivateRead => none
  | .setdasa _ _ => none
  | .entdaa _ => none
  | .powerOnReset => none
  | .resetN _ => none
  | .pwrOkFall => none
  | .brownOut _ => none
  | .overvoltage _ => none
  | .kindlingStart _ => none
  | .startWatchdog => none
  | .confirmWatchdog => none
  | .announce => none
  | .header _ _ _ _ => none
  | .body _ _ _ _ _ => none
  | .finish _ _ _ _ => none
  | .settings _ _ _ _ => none
  | .boot _ _ _ _ => none
  | .recoverySessionTimeout => none
  | .recoveryTimeout _ => none
  | .aliveToggle => none
  | .powerSample _ => none
  | .powerLoop => none
  | .sensorSample _ => none
  | .thermalStep _ _ => none
  | .supplyDip _ _ => none
  | .dipDecay _ => none
  | .refClkLoss => none
  | .lrefLoss _ => none
  | .pcieRefclkLoss => none
  | .trefLoss => none
  | .cellRestoreComplete _ _ => none
  | .railReturnAboveWarning _ => none
  | .refClkReturn => none
  | .flashOperationComplete => none

end Sys2Proof
end

