-- ==== Sys2Proof/Safety.lean ====
section
/-! DEFINITION. The terms in which claims about the device are stated: when a core issues, what an issue leaves alone, when a firmware command
is taken up at once and how it completes, and the canonical form of every store. -/

namespace Sys2Proof.Machine

/-- The core of LCN `n` has the record `c`, and its sequencer issues a bundle in this cycle (R39). -/
def Issuing (s : State) (n : Nat) (c : Core) : Prop := s.core? n = some c ∧ c.withheld = false ∧ c.cpu.issues = true

/-- No result, row, semaphore update, evaluation of waits or array work of the core is on its way. -/
def Cpu.Quiet (c : Cpu) : Prop := c.pend = [] ∧ c.moves = [] ∧ c.sups = [] ∧ c.array.q = [] ∧ c.array.run = [] ∧ c.evals = []

/-- The execution state past the bundle of a cycle, but for what its slots do: the program counter and the pending branches move on (R40, R41), and
what the cycle's own writes replaced is forgotten (R50). -/
def Cpu.past (taken : Option Nat) (c : Cpu) : Cpu :=
  { Cpu.nextPc taken c with cycle := c.cycle + 1, tstWas := [], dmaWas := [], leadWas := [] }

/-- Cycles in banked mode from engine `e` to the owner of semaphore `k` (R191). -/
def Cpu.engDistTo (c : Cpu) (e k : Nat) : Nat := engDist e (c.owner k)

/-- `t` is `s` but for the core of LCN `n` and the counter of free values. -/
def OnlyCore (n : Nat) (s t : State) : Prop :=
  t = { s with cores := t.cores, free := t.free } ∧ t.cores.length = s.cores.length ∧ ∀ m, m ≠ n → t.core? m = s.core? m

/-- `d` is `c` but for the counts of the event counters. -/
def CountsOnly (c d : Core) : Prop := ∃ l, d = { c with obs := { c.obs with cnt := l } }

/-- Command `i` gives a next state in which the core of LCN `n`, of record `c` before, has the execution state `u`; its event counters may
count, and nothing else in the device changes. -/
def IssuesTo (s : State) (n : Nat) (c : Core) (i : Instr) (u : Cpu) : Prop :=
  ∃ t d, exec i s = .next t ∧ t.core? n = some d ∧ CountsOnly { c with cpu := u } d ∧ OnlyCore n s t

/-- `t` is `u` but for what the Ash log and the trace buffers record, which the device's counters count: nothing below the trace buffers changes in
memory (R428, R439). -/
def LogsTo (u t : State) : Prop :=
  t = { u with ash := t.ash, trcs := t.trcs, mem := t.mem, dev := { u.dev with cnt := t.dev.cnt } } ∧ ∀ a < 0x0C0800000000, t.mem.get a = u.mem.get a

/-- The Ash log of `t` is that of `s` with one more record, of a code, die and unit and with the listed fields (R439, R440). -/
def AshTook (s t : State) (code die unit : Nat) (detail : List (Nat × Nat × Nat)) : Prop :=
  ∃ r, t.ash.mirror = (s.ash.mirror ++ [(s.ash.next, r)]).drop (s.ash.mirror.length + 1 - 4096) ∧ t.ash.next = s.ash.next + 1 ∧ r.length = 512 ∧
    fieldAt r 0 8 = s.ash.next % 2 ^ 64 ∧ fieldAt r 16 2 = code ∧ fieldAt r 18 1 = die ∧ fieldAt r 20 4 = unit ∧ fieldAt r 508 4 = 0x4153484D ∧
    ∀ f ∈ detail, fieldAt r f.1 f.2.1 = f.2.2

/-- `t` is `u` but for a record of the Ash log and its triggers; within 1 ms of a record of the same code and source it is suppressed (R442). -/
def Logged (s u t : State) (code die unit : Nat) (detail : List (Nat × Nat × Nat)) : Prop :=
  LogsTo u t ∧
    ((∀ x ∈ s.ash.trigs, x.code = code → x.die = die → x.unit = unit → x.time + 1000000 ≤ s.now) → AshTook s t code die unit detail)

/-- `t` is `s` with the clocks of the cores brought up to this moment. -/
def ClocksTo (s t : State) : Prop :=
  t = { s with clockAt := t.clockAt, cores := t.cores } ∧ (t.cores.map fun c => { c with clock := 0 }) = s.cores.map fun c => { c with clock := 0 }

/-- `t` is the device right after a device reset of a cause came to `s`: what R472 keeps stays, all else is as after a reset. -/
def ResetFrom (s t : State) (cause : Nat) : Prop :=
  t = { State.afterReset s.fuses (if s.inReset then s.fw.cause else cause) s.now t.free s.fenceList s.flash t.ash with
    pending := s.pending, inReset := true, sent := s.sent, mgmtSeen := s.mgmtSeen, i3c := s.i3c, pins := t.pins
    memReg := { MemReg.reset with hbms := s.memReg.hbms.map fun k => ⟨false, false, 0, k.broken⟩ } }

/-- Nothing waits to be settled at the end of a command: no stop, no completion record of a collective, no collective that its engines could start,
no reply to a peer, no write that waits on a copy-on-write, no intent that is satisfied. -/
def State.Calm (s : State) : Prop :=
  (∀ j < 8, (s.job j).state ≠ 7) ∧ (∀ c ∈ s.colls, c.phase ≠ .notifying ∧ (c.phase = .released → s.canBegin c = false)) ∧ s.peerReplies = [] ∧
    s.stalled = [] ∧ ∀ i ∈ s.intents, s.satisfied i = false

/-- Every item of the core's queue has started and formed all its requests, none of which waits in an issue queue (R225, R273). -/
def Served (c : Core) : Prop := (∀ i ∈ c.dma.q, i.phase = .running ∧ i.todo = []) ∧ ∀ r ∈ c.dma.reqs, r.queued = false

/-- `t` is `s` but for the core of LCN `n`, whose record is `d` up to the counts of its event counters, and the counts of the device's counters. -/
def CoreAndCounts (n : Nat) (d : Core) (s t : State) : Prop :=
  (∃ e, t.core? n = some e ∧ CountsOnly d e) ∧ t = { s with cores := t.cores, dev := { s.dev with cnt := t.dev.cnt } } ∧
    t.cores.length = s.cores.length ∧ ∀ m, m ≠ n → t.core? m = s.core? m

/-- The `n` bytes from `a` lie in the host region, in blocks that are not poisoned (R207, R229). -/
def State.Plain (s : State) (a n : Nat) : Prop := ∀ k < n, s.region (a + k) = .host ∧ s.poisoned (a + k) = false

/-- No ring is being deleted, and the completion rings in memory lie in the host region, in blocks that are not poisoned (R349). -/
def State.RingsOk (s : State) : Prop := ∀ x ∈ s.rings, x.closing = false ∧ (x.num < 62 → s.Plain x.cmpBase (64 + 32 * 2 ^ x.c))

/-- A command of the ring `h.ring`, of record `r`, is taken up at once: it has no release time, its fence holds nothing back, and there is room for
its replies (R338, R348, R352, R354). -/
def Ready (s : State) (h : Hdr) (r : Ring) (need : Nat) : Prop :=
  s.fw.stage = 4 ∧ s.Calm ∧ h.rt = none ∧ (h.fence = true → ∀ o ∈ s.outs, o.h.ring ≠ h.ring) ∧ s.ring? h.ring = some r ∧ r.fresh = false ∧ r.spoiled = false ∧
    (∀ w ∈ s.waitq, w.h.ring ≠ h.ring) ∧ (∀ x ∈ s.rings, x.closing = false) ∧ (∀ o ∈ s.outs, o.uid < s.nextUid) ∧
    (∀ j ∈ s.jobs, j.startUid ≠ some s.nextUid) ∧ s.mem.wf = true ∧
    (h.ring = 63 ∨ (h.ring < 62 ∧ r.held = [] ∧ r.lost = false ∧ need ≤ s.ringRoom r ∧ s.Plain r.cmpBase (64 + 32 * 2 ^ r.c)))

/-- The bytes of a command's reply (R356): `op` its opcode, `named` whether it names a job context. -/
def replyOf (now : Nat) (h : Hdr) (op : Nat) (named : Bool) (st rs count result : Nat) : List Byte :=
  [0, BitVec.ofNat 8 st, BitVec.ofNat 8 rs, 0] ++ leBytes 2 op ++ leBytes 1 h.ring ++ leBytes 1 (if named then h.job + 128 else h.job) ++
    leBytes 4 h.tag ++ leBytes 4 count ++ leBytes 8 result ++ leBytes 8 now

/-- Address of entry `q` of a completion ring (R345). -/
def entryAddr (r : Ring) (q : Nat) : Nat := r.cmpBase + 64 + 32 * (q % 2 ^ r.c)

/-- `n` is `m` but for the entries `es` written to the completion ring of record `r`, and its cmp_prod (R345, R347). -/
def EntriesAt (m n : Memory) (r : Ring) (es : List (List Byte)) : Prop :=
  (∀ i e k b, es[i]? = some e → e[k]? = some b → n.get (entryAddr r (r.cmpProd + i) + k) = b) ∧
    (es ≠ [] → ∀ k b, (leBytes 8 (r.cmpProd + es.length))[k]? = some b → n.get (r.cmpBase + k) = b) ∧
    ∀ a, (a < r.cmpBase ∨ r.cmpBase + 8 ≤ a) → (∀ i < es.length, a < entryAddr r (r.cmpProd + i) ∨ entryAddr r (r.cmpProd + i) + 32 ≤ a) → n.get a = m.get a

/-- `u` is `s` but for the cores, the record of job context `j`, and what the firmware heart window holds of it. -/
def OnlyJob (s u : State) (j : Nat) : Prop :=
  u = { s with jobs := u.jobs, cores := u.cores, mem := u.mem } ∧ (∀ k, k ≠ j → u.job k = s.job k) ∧ ∀ a < 0x0C0000000000, u.mem.get a = s.mem.get a

/-- Every core of job `j` but a fenced one is IDLE and belongs to no job; the others are as they were, but that their arrival engines track no item
of the job's cores (R288, R378). -/
def CoresFreed (s u : State) (j : Nat) : Prop :=
  ∀ n c, s.core? n = some c →
    (c.job = some j → c.cpu.st ≠ .fenced → ∃ k, u.core? n = some k ∧ k.job = none ∧ k.cpu.st = .idle ∧ k.withheld = false ∧ k.stopSent = false) ∧
    (c.job ≠ some j → u.core? n = some { c with dma := { c.dma with
      tracked := c.dma.tracked.filter fun t => !((t.issuer.map fun m => ((s.core? m).bind (·.job)) == some j).getD false) } })

/-- `n` bytes from `a` and `m` bytes from `b` have none in common. -/
def Apart (a n b m : Nat) : Prop := a + n ≤ b ∨ b + m ≤ a

/-- The datagrams that carry replies to a command without a client of its own, the last with `out` behind its reply, newest first (R374). -/
def datagrams (es : List (List Byte)) (out : List Byte) : List Sent :=
  (es.zipIdx.map fun e =>
    Sent.datagram 0 0 (leBytes 2 0x5354 ++ [1, 0] ++ leBytes 4 0 ++ (e.1 ++ if e.2 + 1 = es.length then out else []))).reverse

/-- Command `i` of the ring of record `r` is taken up at `s`, and reserves `need` entries: the device becomes `u`, and the replies `es` are written,
the last with `out` behind it where it leaves in a datagram; the number of commands taken up and the device's counters count (R348, R357, R374). -/
def Takes (s : State) (h : Hdr) (r : Ring) (need : Nat) (i : Instr) (es : List (List Byte)) (out : List Byte) (u : State) : Prop :=
  ∃ t, exec i s = .next t ∧
    t = { u with mem := t.mem, rings := t.rings, sent := t.sent, mgmtSeen := t.mgmtSeen, nextUid := s.nextUid + 1,
                 dev := { u.dev with cnt := t.dev.cnt } } ∧
    (∀ q, q ≠ h.ring → t.ring? q = u.ring? q) ∧
    if h.ring = 63 then
      t.mem = u.mem ∧ t.sent = datagrams es out ++ u.sent ∧ t.ring? 63 = some { r with reserved := r.reserved + need }
    else
      EntriesAt u.mem t.mem r es ∧ t.sent = u.sent ∧ t.mgmtSeen = u.mgmtSeen ∧
        t.ring? h.ring = some { r with cmpProd := r.cmpProd + es.length, reserved := r.reserved + need - es.length }

/-- A command with one reply runs to its end, and leaves the device as `u`. -/
def Ends1 (s : State) (h : Hdr) (r : Ring) (i : Instr) (op : Nat) (named : Bool) (st rs count result : Nat) (u : State) : Prop :=
  Takes s h r 1 i [replyOf s.now h op named st rs count result] [] u

/-- A command with two replies, ST_ACCEPTED and the final one, runs to its end, and leaves the device as `u`. -/
def Ends2 (s : State) (h : Hdr) (r : Ring) (i : Instr) (op : Nat) (named : Bool) (st rs count result : Nat) (u : State) : Prop :=
  Takes s h r 2 i [replyOf s.now h op named 1 0 0 0, replyOf s.now h op named st rs count result] [] u

/-- A command in the record of those outstanding, taken up in this moment and running, with its deadline (R355). -/
def outRecord (s : State) (h : Hdr) (c : Cmd) : Out :=
  ⟨s.nextUid, h, c, .running, s.now, h.dl.map fun n => (tickOf s.now + n) * Config.tickNs, false, [], 0, 0, false, (0, 0, 0)⟩

/-- A command with two replies is accepted and leaves the device as `u`, where it is outstanding as `o`: its final reply is still to come. -/
def Runs2 (s : State) (h : Hdr) (r : Ring) (i : Instr) (op : Nat) (named : Bool) (o : Out) (u : State) : Prop :=
  Takes s h r 2 i [replyOf s.now h op named 1 0 0 0] [] { u with outs := s.outs ++ [o] }

/-- A query's output goes to its buffer, which lies in the host region, or behind the reply on ring 63 (R361, R362, R374). -/
def Query (s : State) (h : Hdr) (r : Ring) (i : Instr) (op : Nat) (named : Bool) (buf : Nat) (out : List Byte) (result : Nat) (u : State) : Prop :=
  (h.ring = 63 ∨ s.Plain buf out.length) →
    Takes s h r 1 i [replyOf s.now h op named 0 0 0 result] out { u with mem := if h.ring = 63 then u.mem else u.mem.write buf out }

/-- Every byte store of the device is in its canonical form: its addresses rise and it lists no byte that reads as an unlisted one. -/
def State.Canonical (s : State) : Prop :=
  s.mem.wf = true ∧ s.flash.wf = true ∧
    ∀ c ∈ s.cores, c.cpu.scratch.wf = true ∧ c.cpu.vfile.wf = true ∧ c.cpu.accs.wf = true ∧ c.cpu.leadMem.wf = true ∧ c.cpu.prog.wf = true

end Sys2Proof.Machine
end

