-- ==== Sys2Proof/Certificates/Slice0/Obligations.lean ====
section
/-! DEFINITION. The statements for the provers. -/

namespace Sys2Proof.Claims

open Sys2Proof.Machine

/-- The commands of R111 on two registers, with their results. -/
def aluReg : List ((Nat → Fin 32 → Fin 32 → Fin 32 → Instr) × (Word → Word → Word)) :=
  [(.add, fun a b => a + b), (.sub, fun a b => a - b), (.andOp, fun a b => a &&& b), (.orOp, fun a b => a ||| b), (.xor, fun a b => a ^^^ b),
   (.shl, fun a b => a <<< (b.toNat % 64)), (.shr, fun a b => a >>> (b.toNat % 64)), (.sra, fun a b => a.sshiftRight (b.toNat % 64)),
   (.mul, fun a b => a * b), (.min, fun a b => if a.toInt < b.toInt then a else b), (.max, fun a b => if a.toInt < b.toInt then b else a)]

/-- The commands of R111 with an imm14, with their results on the sign-extended immediate. -/
def aluImm : List ((Nat → Fin 32 → Fin 32 → BitVec 14 → Instr) × (Word → Word → Word)) :=
  [(.addi, fun a b => a + b), (.subi, fun a b => a - b), (.andi, fun a b => a &&& b), (.ori, fun a b => a ||| b), (.xori, fun a b => a ^^^ b),
   (.shli, fun a b => a <<< (b.toNat % 64)), (.shri, fun a b => a >>> (b.toNat % 64)), (.srai, fun a b => a.sshiftRight (b.toNat % 64)),
   (.muli, fun a b => a * b), (.mini, fun a b => if a.toInt < b.toInt then a else b), (.maxi, fun a b => if a.toInt < b.toInt then b else a)]

/-- The integer conditions of R114 with their codes. -/
def intConds : List (BitVec 4 × (Word → Word → Bool)) :=
  [(0, fun a b => a == b), (1, fun a b => a != b), (2, fun a b => a.toInt < b.toInt), (3, fun a b => b.toInt ≤ a.toInt),
   (4, fun a b => a.toNat < b.toNat), (5, fun a b => b.toNat ≤ a.toNat)]

/-- The floating-point conditions of R114 with their codes. -/
def fpConds : List (BitVec 4 × (Value → Value → Bool)) :=
  [(8, fun a b => a.eqv b), (9, fun a b => !a.eqv b), (10, fun a b => a.lt b), (11, fun a b => !a.isNan && !b.isNan && !a.lt b),
   (12, fun a b => a.isNan || b.isNan), (13, fun a _ => a.isNan || !a.isFin)]

/-- KOP's functions by fn (R115). -/
def kops : List (BitVec 3 × (Bool → Bool → Bool)) :=
  [(0, fun a b => a && b), (1, fun a b => a || b), (2, fun a b => a ^^ b), (3, fun a b => a && !b), (4, fun a _ => !a),
   (5, fun _ _ => false), (6, fun _ _ => true)]

/-- An exact value rounded to FP32. -/
def inF32 (x : Value) : Value := ofF32 (toF32 x)

/-- What R170 fixes of the transcendental functions. -/
def expFixed : Value → Option Value
  | .nan => some .nan
  | .inf false => some (.inf false)
  | .inf true => some .zero
  | .fin _ _ _ => none

def logFixed : Value → Option Value
  | .nan => some .nan
  | .inf false => some (.inf false)
  | .inf true => some .nan
  | .fin neg m _ => if m = 0 then some (.inf true) else if neg then some .nan else none

def recipFixed : Value → Option Value
  | .nan => some .nan
  | .inf neg => some (.fin neg 0 0)
  | .fin neg m _ => if m = 0 then some (.inf neg) else none

def rsqrtFixed : Value → Option Value
  | .nan => some .nan
  | .inf false => some .zero
  | .inf true => some .nan
  | .fin neg m _ => if m = 0 then some (.inf neg) else if neg then some .nan else none

def tanhFixed : Value → Option Value
  | .nan => some .nan
  | .inf neg => some (.fin neg 1 0)
  | .fin neg m e => if m = 0 then some (.fin neg m e) else none

/-- The elementwise commands, whether each uses operand b, and what the manual says of a result `r` of the operands a, b and the destination's old
value d (R140, R170). -/
def vops : List ((Nat → Fin 16 → BitVec 7 → BitVec 7 → Fin 16 → Instr) × Bool × (Value → Value → Value → Value → Prop)) :=
  [(.vopAdd, true, fun a b _ r => r = inF32 (a.add b)), (.vopSub, true, fun a b _ r => r = inF32 (a.add b.neg)),
   (.vopMul, true, fun a b _ r => r = inF32 (a.mul b)), (.vopFma, true, fun a b d r => r = inF32 ((a.mul b).add d)),
   (.vopMax, true, fun a b _ r => r = inF32 (a.max b)), (.vopMin, true, fun a b _ r => r = inF32 (a.min b)),
   (.vopAbs, false, fun a _ _ r => r = inF32 a.abs), (.vopNeg, false, fun a _ _ r => r = inF32 a.neg), (.vopMov, false, fun a _ _ r => r = a),
   (.vopExp, false, fun a _ _ r => ∀ x ∈ expFixed a, r = x), (.vopLog, false, fun a _ _ r => ∀ x ∈ logFixed a, r = x),
   (.vopRecip, false, fun a _ _ r => ∀ x ∈ recipFixed a, r = x), (.vopRsqrt, false, fun a _ _ r => ∀ x ∈ rsqrtFixed a, r = x),
   (.vopTanh, false, fun a _ _ r => ∀ x ∈ tanhFixed a, r = x)]

/-- Element `k` of slice `i`, of `E` elements, of the operand with a code: accumulator rows, a tile, or a scalar register's FP32 value (R138, R139). -/
def opElem (c : Cpu) (code E i k : Nat) : Value :=
  if code < 64 then fp32.decode (c.accs.getBits accBytes ((code * 4096 + (2 * i + k / 32) % 32 * 128 + k % 32 * 4) * 8) 32)
  else if code < 80 then (c.tile (code - 64)).elem c.vfile (E * i + k)
  else ofF32 ((c.sreg (code - 80)).setWidth 32)

/-- An accumulator or an FP32 tile: a slice has 64 elements (R139). -/
def opWide (c : Cpu) (code : Nat) : Bool := decide (code < 64) || (decide (code < 80) && (c.tile (code - 64)).fmt == 0)

/-- A tile operand holds a slice of `E` elements (R132). -/
def opFits (c : Cpu) (E code : Nat) : Prop := 64 ≤ code → code < 80 → E ≤ (c.tile (code - 64)).rows * (c.tile (code - 64)).cols

/-- Slice `i` of an operand (R139). -/
def opSlice (c : Cpu) (code E i : Nat) : List Value := (List.range E).map (opElem c code E i)

/-- The same passes in the array, but for how far their feeder queues have been filled. -/
def SameRun (a b : List PassRun) : Prop := (a.map fun r => { r with rows := [], done := 0 }) = b.map fun r => { r with rows := [], done := 0 }

/-- The value of a reduction of slices (R141, R492). -/
def reds : List (RFn × (List Value → List Value → W32)) :=
  [(.sum, fun xs _ => tree f32add 0 (xs.map toF32)), (.max, fun xs _ => tree f32max 0 (xs.map toF32)),
   (.ssq, fun xs _ => tree f32add 0 (xs.map fun x => toF32 ((inF32 x).mul (inF32 x)))),
   (.dot, fun xs ys => tree f32add 0 (List.zipWith (fun x y => toF32 ((inF32 x).mul (inF32 y))) xs ys))]

/-- The command of a reduction into a tile element, and into a scalar register. -/
def redTile : RFn → Nat → Fin 16 → BitVec 7 → BitVec 7 → Fin 16 → BitVec 2 → Instr
  | .sum => .vredSum
  | .max => .vredMax
  | .ssq => .vredSsq
  | .dot => .vredDot

def redScalar : RFn → Nat → Fin 32 → BitVec 7 → BitVec 7 → Fin 16 → Instr
  | .sum => .vredSSum
  | .max => .vredSMax
  | .ssq => .vredSSsq
  | .dot => .vredSDot

/-- A 32-bit slot word: its opcode and its fields by their lowest bits (R110). -/
def word (op : Nat) (fields : List (Nat × Nat)) : Nat := op * 2 ^ 24 + (fields.map fun f => f.1 * 2 ^ f.2).sum

/-- The slot (0 move, 1 vector, 2 matrix, 3 control), core and 32-bit word of each slot instruction (R101, R110, R128, R137, R147). -/
def slotWord : Instr → Option (Nat × Nat × Nat)
  | .add lcn sd sa sb => some (lcn, 3, word 0x01 [(sd.val, 19), (sa.val, 14), (sb.val, 9)])
  | .sub lcn sd sa sb => some (lcn, 3, word 0x02 [(sd.val, 19), (sa.val, 14), (sb.val, 9)])
  | .andOp lcn sd sa sb => some (lcn, 3, word 0x03 [(sd.val, 19), (sa.val, 14), (sb.val, 9)])
  | .orOp lcn sd sa sb => some (lcn, 3, word 0x04 [(sd.val, 19), (sa.val, 14), (sb.val, 9)])
  | .xor lcn sd sa sb => some (lcn, 3, word 0x05 [(sd.val, 19), (sa.val, 14), (sb.val, 9)])
  | .shl lcn sd sa sb => some (lcn, 3, word 0x06 [(sd.val, 19), (sa.val, 14), (sb.val, 9)])
  | .shr lcn sd sa sb => some (lcn, 3, word 0x07 [(sd.val, 19), (sa.val, 14), (sb.val, 9)])
  | .sra lcn sd sa sb => some (lcn, 3, word 0x08 [(sd.val, 19), (sa.val, 14), (sb.val, 9)])
  | .mul lcn sd sa sb => some (lcn, 3, word 0x09 [(sd.val, 19), (sa.val, 14), (sb.val, 9)])
  | .min lcn sd sa sb => some (lcn, 3, word 0x0A [(sd.val, 19), (sa.val, 14), (sb.val, 9)])
  | .max lcn sd sa sb => some (lcn, 3, word 0x0B [(sd.val, 19), (sa.val, 14), (sb.val, 9)])
  | .addi lcn sd sa imm => some (lcn, 3, word 0x11 [(sd.val, 19), (sa.val, 14), (imm.toNat, 0)])
  | .subi lcn sd sa imm => some (lcn, 3, word 0x12 [(sd.val, 19), (sa.val, 14), (imm.toNat, 0)])
  | .andi lcn sd sa imm => some (lcn, 3, word 0x13 [(sd.val, 19), (sa.val, 14), (imm.toNat, 0)])
  | .ori lcn sd sa imm => some (lcn, 3, word 0x14 [(sd.val, 19), (sa.val, 14), (imm.toNat, 0)])
  | .xori lcn sd sa imm => some (lcn, 3, word 0x15 [(sd.val, 19), (sa.val, 14), (imm.toNat, 0)])
  | .shli lcn sd sa imm => some (lcn, 3, word 0x16 [(sd.val, 19), (sa.val, 14), (imm.toNat, 0)])
  | .shri lcn sd sa imm => some (lcn, 3, word 0x17 [(sd.val, 19), (sa.val, 14), (imm.toNat, 0)])
  | .srai lcn sd sa imm => some (lcn, 3, word 0x18 [(sd.val, 19), (sa.val, 14), (imm.toNat, 0)])
  | .muli lcn sd sa imm => some (lcn, 3, word 0x19 [(sd.val, 19), (sa.val, 14), (imm.toNat, 0)])
  | .mini lcn sd sa imm => some (lcn, 3, word 0x1A [(sd.val, 19), (sa.val, 14), (imm.toNat, 0)])
  | .maxi lcn sd sa imm => some (lcn, 3, word 0x1B [(sd.val, 19), (sa.val, 14), (imm.toNat, 0)])
  | .li lcn sd imm => some (lcn, 3, word 0x20 [(sd.val, 19), (imm.toNat, 0)])
  | .lih lcn sd q imm => some (lcn, 3, word 0x21 [(sd.val, 19), (q.toNat, 16), (imm.toNat, 0)])
  | .lcSet lcn cn imm => some (lcn, 3, word 0x24 [(cn.val, 20), (imm.toNat, 0)])
  | .lcAdd lcn cn imm => some (lcn, 3, word 0x25 [(cn.val, 20), (imm.toNat, 0)])
  | .lcMov lcn cn sa => some (lcn, 3, word 0x26 [(cn.val, 20), (sa.val, 14)])
  | .movC lcn sd cn => some (lcn, 3, word 0x27 [(sd.val, 19), (cn.val, 15)])
  | .cmp lcn kd cond sa sb => some (lcn, 3, word 0x28 [(kd.val, 21), (cond.toNat, 17), (sa.val, 12), (sb.val, 7)])
  | .cmpi lcn kd cond sa imm => some (lcn, 3, word 0x29 [(kd.val, 21), (cond.toNat, 17), (sa.val, 12), (imm.toNat, 0)])
  | .kop lcn kd ka kb fn => some (lcn, 3, word 0x2A [(kd.val, 21), (ka.val, 18), (kb.val, 15), (fn.toNat, 12)])
  | .br lcn target => some (lcn, 3, word 0x30 [(target.toNat, 0)])
  | .brK lcn kn sense target => some (lcn, 3, word 0x31 [(kn.val, 21), (b2n sense, 20), (target.toNat, 0)])
  | .brC lcn cn target => some (lcn, 3, word 0x32 [(cn.val, 20), (target.toNat, 0)])
  | .semInc lcn mn imm => some (lcn, 3, word 0x38 [(mn.toNat, 18), (imm.toNat, 0)])
  | .semSet lcn mn imm => some (lcn, 3, word 0x39 [(mn.toNat, 18), (imm.toNat, 0)])
  | .semW lcn mn consume target => some (lcn, 3, word 0x3A [(mn.toNat, 18), (b2n consume, 16), (target.toNat, 0)])
  | .waitT lcn sa => some (lcn, 3, word 0x40 [(sa.val, 14)])
  | .timeRd lcn sd => some (lcn, 3, word 0x41 [(sd.val, 19)])
  | .mark lcn sa id => some (lcn, 3, word 0x44 [(sa.val, 19), (id.toNat, 0)])
  | .dmai lcn kd sa => some (lcn, 3, word 0x48 [(kd.val, 21), (sa.val, 14)])
  | .scaleDn lcn sd sa sh => some (lcn, 3, word 0x4C [(sd.val, 19), (sa.val, 14), (sh.toNat, 0)])
  | .flagK lcn kd => some (lcn, 3, word 0x4D [(kd.val, 21)])
  | .flagClr lcn => some (lcn, 3, word 0x4E [])
  | .endOp lcn => some (lcn, 3, word 0x4F [])
  | .ldB lcn sd sa imm => some (lcn, 3, word 0x80 [(sd.val, 19), (sa.val, 14), (imm.toNat, 0)])
  | .ldH lcn sd sa imm => some (lcn, 3, word 0x81 [(sd.val, 19), (sa.val, 14), (imm.toNat, 0)])
  | .ldW lcn sd sa imm => some (lcn, 3, word 0x82 [(sd.val, 19), (sa.val, 14), (imm.toNat, 0)])
  | .ldD lcn sd sa imm => some (lcn, 3, word 0x83 [(sd.val, 19), (sa.val, 14), (imm.toNat, 0)])
  | .stB lcn sb sa imm => some (lcn, 3, word 0x84 [(sb.val, 19), (sa.val, 14), (imm.toNat, 0)])
  | .stH lcn sb sa imm => some (lcn, 3, word 0x85 [(sb.val, 19), (sa.val, 14), (imm.toNat, 0)])
  | .stW lcn sb sa imm => some (lcn, 3, word 0x86 [(sb.val, 19), (sa.val, 14), (imm.toNat, 0)])
  | .stD lcn sb sa imm => some (lcn, 3, word 0x87 [(sb.val, 19), (sa.val, 14), (imm.toNat, 0)])
  | .faddD lcn sd sa sb => some (lcn, 3, word 0x88 [(sd.val, 19), (sa.val, 14), (sb.val, 9)])
  | .fsubD lcn sd sa sb => some (lcn, 3, word 0x89 [(sd.val, 19), (sa.val, 14), (sb.val, 9)])
  | .fmulD lcn sd sa sb => some (lcn, 3, word 0x8A [(sd.val, 19), (sa.val, 14), (sb.val, 9)])
  | .fmaD lcn sd sa sb sc => some (lcn, 3, word 0x8B [(sd.val, 19), (sa.val, 14), (sb.val, 9), (sc.val, 4)])
  | .fdivD lcn sd sa sb => some (lcn, 3, word 0x8C [(sd.val, 19), (sa.val, 14), (sb.val, 9)])
  | .fsqrtD lcn sd sa => some (lcn, 3, word 0x8D [(sd.val, 19), (sa.val, 14)])
  | .fcmpD lcn kd cond sa sb => some (lcn, 3, word 0x8E [(kd.val, 21), (cond.toNat, 17), (sa.val, 12), (sb.val, 7)])
  | .cvtDL lcn sd sa => some (lcn, 3, word 0x8F [(sd.val, 19), (sa.val, 14)])
  | .cvtLD lcn sd sa => some (lcn, 3, word 0x90 [(sd.val, 19), (sa.val, 14)])
  | .cvtDF lcn sd sa => some (lcn, 3, word 0x91 [(sd.val, 19), (sa.val, 14)])
  | .cvtFD lcn sd sa => some (lcn, 3, word 0x92 [(sd.val, 19), (sa.val, 14)])
  | .brI lcn sa => some (lcn, 3, word 0x98 [(sa.val, 14)])
  | .call lcn target => some (lcn, 3, word 0x99 [(target.toNat, 0)])
  | .ret lcn => some (lcn, 3, word 0x9A [])
  | .tcfg lcn tn sa al => some (lcn, 2, word 0x01 [(tn.val, 20), (sa.val, 15), (b2n al, 14)])
  | .tcfgRelease lcn tn => some (lcn, 2, word 0x01 [(tn.val, 20), (1, 13)])
  | .lds lcn tg gm1 kslice nblock arr => some (lcn, 2, word 0x08 [(tg.val, 20), (gm1.toNat, 18), (kslice.toNat, 13), (nblock.toNat, 10), (arr.toNat, 8)])
  | .ldsT lcn tg gm1 kslice nblock arr => some (lcn, 2, word 0x09 [(tg.val, 20), (gm1.toNat, 18), (kslice.toNat, 13), (nblock.toNat, 10), (arr.toNat, 8)])
  | .swap lcn => some (lcn, 2, word 0x0C [])
  | .mma lcn sa sb msem arr => some (lcn, 2, word 0x10 [(sa.val, 19), (sb.val, 14), (msem.toNat, 8), (arr.toNat, 6)])
  | .mmaT lcn sa sb msem arr => some (lcn, 2, word 0x11 [(sa.val, 19), (sb.val, 14), (msem.toNat, 8), (arr.toNat, 6)])
  | .mwait lcn mn consume target => some (lcn, 2, word 0x18 [(mn.toNat, 18), (b2n consume, 16), (target.toNat, 0)])
  | .vopAdd lcn td a b cr => some (lcn, 1, word 0x01 [(td.val, 20), (a.toNat, 13), (b.toNat, 6), (cr.val, 2)])
  | .vopSub lcn td a b cr => some (lcn, 1, word 0x02 [(td.val, 20), (a.toNat, 13), (b.toNat, 6), (cr.val, 2)])
  | .vopMul lcn td a b cr => some (lcn, 1, word 0x03 [(td.val, 20), (a.toNat, 13), (b.toNat, 6), (cr.val, 2)])
  | .vopFma lcn td a b cr => some (lcn, 1, word 0x04 [(td.val, 20), (a.toNat, 13), (b.toNat, 6), (cr.val, 2)])
  | .vopMax lcn td a b cr => some (lcn, 1, word 0x05 [(td.val, 20), (a.toNat, 13), (b.toNat, 6), (cr.val, 2)])
  | .vopMin lcn td a b cr => some (lcn, 1, word 0x06 [(td.val, 20), (a.toNat, 13), (b.toNat, 6), (cr.val, 2)])
  | .vopAbs lcn td a b cr => some (lcn, 1, word 0x07 [(td.val, 20), (a.toNat, 13), (b.toNat, 6), (cr.val, 2)])
  | .vopNeg lcn td a b cr => some (lcn, 1, word 0x08 [(td.val, 20), (a.toNat, 13), (b.toNat, 6), (cr.val, 2)])
  | .vopExp lcn td a b cr => some (lcn, 1, word 0x09 [(td.val, 20), (a.toNat, 13), (b.toNat, 6), (cr.val, 2)])
  | .vopLog lcn td a b cr => some (lcn, 1, word 0x0A [(td.val, 20), (a.toNat, 13), (b.toNat, 6), (cr.val, 2)])
  | .vopRecip lcn td a b cr => some (lcn, 1, word 0x0B [(td.val, 20), (a.toNat, 13), (b.toNat, 6), (cr.val, 2)])
  | .vopRsqrt lcn td a b cr => some (lcn, 1, word 0x0C [(td.val, 20), (a.toNat, 13), (b.toNat, 6), (cr.val, 2)])
  | .vopTanh lcn td a b cr => some (lcn, 1, word 0x0D [(td.val, 20), (a.toNat, 13), (b.toNat, 6), (cr.val, 2)])
  | .vopMov lcn td a b cr => some (lcn, 1, word 0x0E [(td.val, 20), (a.toNat, 13), (b.toNat, 6), (cr.val, 2)])
  | .vredSum lcn td a b cr sh => some (lcn, 1, word 0x10 [(td.val, 20), (a.toNat, 13), (b.toNat, 6), (cr.val, 2), (sh.toNat, 0)])
  | .vredMax lcn td a b cr sh => some (lcn, 1, word 0x11 [(td.val, 20), (a.toNat, 13), (b.toNat, 6), (cr.val, 2), (sh.toNat, 0)])
  | .vredSsq lcn td a b cr sh => some (lcn, 1, word 0x12 [(td.val, 20), (a.toNat, 13), (b.toNat, 6), (cr.val, 2), (sh.toNat, 0)])
  | .vredDot lcn td a b cr sh => some (lcn, 1, word 0x13 [(td.val, 20), (a.toNat, 13), (b.toNat, 6), (cr.val, 2), (sh.toNat, 0)])
  | .vredSSum lcn sd a b cr => some (lcn, 1, word 0x14 [(sd.val, 19), (a.toNat, 12), (b.toNat, 5), (cr.val, 1)])
  | .vredSMax lcn sd a b cr => some (lcn, 1, word 0x15 [(sd.val, 19), (a.toNat, 12), (b.toNat, 5), (cr.val, 1)])
  | .vredSSsq lcn sd a b cr => some (lcn, 1, word 0x16 [(sd.val, 19), (a.toNat, 12), (b.toNat, 5), (cr.val, 1)])
  | .vredSDot lcn sd a b cr => some (lcn, 1, word 0x17 [(sd.val, 19), (a.toNat, 12), (b.toNat, 5), (cr.val, 1)])
  | .cvt lcn td a ss cr g => some (lcn, 1, word 0x20 [(td.val, 20), (a.toNat, 13), (ss.val, 8), (cr.val, 2), (b2n g, 1)])
  | .rng lcn td ss cr => some (lcn, 1, word 0x24 [(td.val, 20), (ss.val, 8), (cr.val, 2)])
  | .updc lcn tw a tq cr => some (lcn, 1, word 0x28 [(tw.val, 20), (a.toNat, 13), (tq.val, 9), (cr.val, 2)])
  | .vsig lcn mn imm => some (lcn, 1, word 0x30 [(mn.toNat, 18), (imm.toNat, 0)])
  | .vwait lcn mn consume target => some (lcn, 1, word 0x31 [(mn.toNat, 18), (b2n consume, 16), (target.toNat, 0)])
  | .tld lcn tn sa => some (lcn, 0, word 0x01 [(tn.val, 20), (sa.val, 15)])
  | .tst lcn tn sa => some (lcn, 0, word 0x02 [(tn.val, 20), (sa.val, 15)])
  | .ard lcn tn aa row0 nm1 cr => some (lcn, 0, word 0x03 [(tn.val, 20), (aa.val, 14), (row0.toNat, 9), (nm1.toNat, 4), (cr.val, 0)])
  | .nop lcn => some (lcn, 3, word 0x00 [])
  | _ => none

end Sys2Proof.Claims

open Sys2Proof Sys2Proof.Machine Sys2Proof.Claims

/-- R39, R104, R111: a scalar operation on two registers, or on a register and the sign-extended imm14, LI of the sign-extended imm19 and CMPI with the
sign-extended imm12, issued by a core with nothing on its way, leaves the 64-bit result in Sd (the comparison's in Kd) one cycle later and changes no
other register, flag, store or device state: none of them faults. -/
def Obligations.ScalarResult : Prop :=
  ∀ (s : State) (n : Nat) (c : Core) (sd sa sb : Fin 32) (imm : BitVec 14), Issuing s n c → c.cpu.Quiet →
    (∀ p ∈ aluReg, IssuesTo s n c (p.1 n sd sa sb) { c.cpu.past none with sregs := c.cpu.sregs.set sd (p.2 (c.cpu.sreg sa) (c.cpu.sreg sb)) }) ∧
    (∀ p ∈ aluImm, IssuesTo s n c (p.1 n sd sa imm) { c.cpu.past none with sregs := c.cpu.sregs.set sd (p.2 (c.cpu.sreg sa) (imm.signExtend 64)) }) ∧
    (∀ imm19, IssuesTo s n c (.li n sd imm19) { c.cpu.past none with sregs := c.cpu.sregs.set sd (imm19.signExtend 64) }) ∧
    ∀ p ∈ intConds, ∀ (kd : Fin 8) (imm12 : BitVec 12),
      IssuesTo s n c (.cmpi n kd p.1 sa imm12) { c.cpu.past none with ks := c.cpu.ks.set kd (p.2 (c.cpu.sreg sa) (imm12.signExtend 64)) }

/-- R64, R104, R106, R111: whatever else is on its way, a scalar result is in Sd when the next cycle begins, computed from the registers as they stood,
provided that nothing on its way writes a register that the operation names. -/
def Obligations.ScalarResultAmongOthersInFlight : Prop :=
  ∀ (s : State) (n : Nat) (c : Core) (sd sa sb : Fin 32), Issuing s n c → c.cpu.sregs.length = 32 →
    (∀ q ∈ c.cpu.pend, ∀ r v, q.act = .sreg r v → r ≠ sd.val ∧ r ≠ sa.val ∧ r ≠ sb.val) →
    (∀ p ∈ aluReg, ∃ t d, exec (p.1 n sd sa sb) s = .next t ∧ t.core? n = some d ∧ d.cpu.cycle = c.cpu.cycle + 1 ∧
      d.cpu.sreg sd = p.2 (c.cpu.sreg sa) (c.cpu.sreg sb) ∧ OnlyCore n s t) ∧
    (∀ p ∈ aluImm, ∀ imm, ∃ t d, exec (p.1 n sd sa imm) s = .next t ∧ t.core? n = some d ∧ d.cpu.cycle = c.cpu.cycle + 1 ∧
      d.cpu.sreg sd = p.2 (c.cpu.sreg sa) (imm.signExtend 64) ∧ OnlyCore n s t)

/-- R112, R113, R122: constants, loop counters and the loss scale. -/
def Obligations.ConstantsAndLoopCounters : Prop :=
  ∀ (s : State) (n : Nat) (c : Core) (sd sa : Fin 32) (cn : Fin 16), Issuing s n c → c.cpu.Quiet →
    let set (v : Word) : Cpu := { c.cpu.past none with sregs := c.cpu.sregs.set sd v }
    let setC (v : W32) : Cpu := { c.cpu.past none with lcs := c.cpu.lcs.set cn v }
    (∀ imm, IssuesTo s n c (.li n sd imm) (set (imm.signExtend 64))) ∧
    (∀ q imm, ∃ v : Word, IssuesTo s n c (.lih n sd q imm) (set v) ∧
      ∀ k : Fin 4, (v >>> (16 * k.val)).setWidth 16 = if k.val = q.toNat then imm else (c.cpu.sreg sd >>> (16 * k.val)).setWidth 16) ∧
    (∀ imm, IssuesTo s n c (.lcSet n cn imm) (setC (imm.setWidth 32))) ∧
    (∀ imm, IssuesTo s n c (.lcAdd n cn imm) (setC (c.cpu.lcs.getD cn 0 + imm.signExtend 32))) ∧
    IssuesTo s n c (.lcMov n cn sa) (setC ((c.cpu.sreg sa).setWidth 32)) ∧
    IssuesTo s n c (.movC n sd cn) (set ((c.cpu.lcs.getD cn 0).setWidth 64)) ∧
    (∀ sh : BitVec 4, let w := (c.cpu.sreg sa).toNat % 2 ^ 32
      let k := if sh = 0 then 1 else sh.toNat
      let e := w / 2 ^ 23
      IssuesTo s n c (.scaleDn n sd sa sh)
        (set (BitVec.ofNat 64 (if e = 0 ∨ 255 ≤ e then w else if k < e then w - k * 2 ^ 23 else 2 ^ 23))))

/-- R114, R115, R123: comparators and the OVF flag. -/
def Obligations.ComparatorResults : Prop :=
  ∀ (s : State) (n : Nat) (c : Core) (kd ka kb : Fin 8) (sa sb : Fin 32), Issuing s n c → c.cpu.Quiet →
    let set (v : Bool) : Cpu := { c.cpu.past none with ks := c.cpu.ks.set kd v }
    let f32 (x : Word) : Value := fp32.decode (x.toNat % 2 ^ 32)
    (∀ p ∈ intConds, IssuesTo s n c (.cmp n kd p.1 sa sb) (set (p.2 (c.cpu.sreg sa) (c.cpu.sreg sb))) ∧
      ∀ imm, IssuesTo s n c (.cmpi n kd p.1 sa imm) (set (p.2 (c.cpu.sreg sa) (imm.signExtend 64)))) ∧
    (∀ p ∈ fpConds, IssuesTo s n c (.cmp n kd p.1 sa sb) (set (p.2 (f32 (c.cpu.sreg sa)) (f32 (c.cpu.sreg sb)))) ∧
      ∀ imm : BitVec 12, IssuesTo s n c (.cmpi n kd p.1 sa imm) (set (p.2 (f32 (c.cpu.sreg sa)) (fp32.decode (fp32.rn (Value.ofInt imm.toInt)))))) ∧
    (∀ p ∈ kops, IssuesTo s n c (.kop n kd ka kb p.1) (set (p.2 (c.cpu.ks.getD ka false) (c.cpu.ks.getD kb false)))) ∧
    IssuesTo s n c (.flagK n kd) (set c.cpu.ovf) ∧
    IssuesTo s n c (.flagClr n) { c.cpu.past none with ovf := false }

/-- R41, R63, R116, R127: a taken branch waits for three more bundles; BR.C decrements its counter first; CALL and RET use the return stack of a lead
core, on which an ordinary core acts as on a no-op.  The bundles after a taken branch are the three that follow it, then the one at its target
(R40, R41). -/
def Obligations.BranchInstructions : Prop :=
  ∀ (s : State) (n : Nat) (c : Core) (target : BitVec 14) (sa : Fin 32), Issuing s n c → c.cpu.Quiet →
    IssuesTo s n c (.br n target) (c.cpu.past (some target.toNat)) ∧
    (∀ (kn : Fin 8) (sense : Bool), IssuesTo s n c (.brK n kn sense target)
      (c.cpu.past (if c.cpu.ks.getD kn false = sense then some target.toNat else none))) ∧
    (∀ cn : Fin 16, let v := c.cpu.lcs.getD cn 0 - 1
      IssuesTo s n c (.brC n cn target) { c.cpu.past (if v = 0 then none else some target.toNat) with lcs := c.cpu.lcs.set cn v }) ∧
    (c.cpu.lead = true →
      IssuesTo s n c (.brI n sa) (c.cpu.past (some ((c.cpu.sreg sa).toNat % 16384))) ∧
      IssuesTo s n c (.call n target) { c.cpu.past (some target.toNat) with rets := (((c.cpu.pc + 4) % 16384) :: c.cpu.rets).take 32 } ∧
      ∀ r l, c.cpu.rets = r :: l → IssuesTo s n c (.ret n) { c.cpu.past (some r) with rets := l }) ∧
    (c.cpu.lead = false → ∀ i ∈ [Instr.brI n sa, .call n target, .ret n], IssuesTo s n c i (c.cpu.past none)) ∧
    (c.cpu.brs = [] →
      ∃ s1 s2 s3 s4, exec (.br n target) s = .next s1 ∧ exec (.nop n) s1 = .next s2 ∧ exec (.nop n) s2 = .next s3 ∧ exec (.nop n) s3 = .next s4 ∧
        ([s1, s2, s3, s4].map fun t => (t.core? n).map fun d => (d.cpu.pc, d.cpu.cycle)) =
          [some ((c.cpu.pc + 1) % 16384, c.cpu.cycle + 1), some ((c.cpu.pc + 2) % 16384, c.cpu.cycle + 2),
           some ((c.cpu.pc + 3) % 16384, c.cpu.cycle + 3), some (target.toNat, c.cpu.cycle + 4)])

/-- R117, R146, R189, R190: a semaphore update leaves the issuing engine and is on its way for four cycles in counted mode and for the distance to the
semaphore's owner in banked mode, VSIG starting after sixteen cycles; SEMAPHORE_UPDATE then makes it visible, whatever else is under way, and marks
the semaphore for the evaluation at the end of the cycle. An update one cycle away is visible when the issuing cycle is over.
What it says beyond the rules is the model's choice: log entry 12. -/
def Obligations.SemaphoreUpdates : Prop :=
  ∀ (s : State) (n : Nat) (c : Core) (mn : BitVec 6) (v : BitVec 16), mn.toNat < 48 →
    let sum := c.cpu.sems.getD mn.toNat 0 + v
    (Issuing s n c → c.cpu.Quiet →
      (let d := if c.cpu.banked then Cpu.engDistTo c.cpu engSeq mn.toNat else 4
       (1 < d →
         IssuesTo s n c (.semInc n mn v) { c.cpu.past none with sups := [⟨c.cpu.cycle + d, mn.toNat, false, v.toNat, c.cpu.cycle + d⟩] } ∧
         IssuesTo s n c (.semSet n mn v) { c.cpu.past none with sups := [⟨c.cpu.cycle + d, mn.toNat, true, v.toNat, c.cpu.cycle + d⟩] }) ∧
       (d = 1 →
         IssuesTo s n c (.semInc n mn v) { c.cpu.past none with sems := c.cpu.sems.set mn.toNat sum, evals := [(mn.toNat, c.cpu.cycle + 1)] } ∧
         IssuesTo s n c (.semSet n mn v) { c.cpu.past none with sems := c.cpu.sems.set mn.toNat v, evals := [(mn.toNat, c.cpu.cycle + 1)] })) ∧
      (let d := if c.cpu.banked then Cpu.engDistTo c.cpu engVec mn.toNat else 4
       IssuesTo s n c (.vsig n mn v) { c.cpu.past none with sups := [⟨c.cpu.cycle + 16 + d, mn.toNat, false, v.toNat, c.cpu.cycle + 16 + d⟩] })) ∧
    (∀ l isSet made, s.core? n = some c → c.cpu.st ≠ .fenced → c.cpu.evals = [] → c.cpu.sups = [⟨l, mn.toNat, isSet, v.toNat, made⟩] →
      let sems := c.cpu.sems.set mn.toNat (if isSet then v else sum)
      (∃ t d, exec (.semaphoreUpdate n) s = .next t ∧ OnlyCore n s t ∧ t.core? n = some d ∧ d.cpu.sems = sems ∧ d.cpu.sups = [] ∧
        d.cpu.evals = [(mn.toNat, made)] ∧ d.cpu.waits = c.cpu.waits ∧ d.cpu.cycle = max c.cpu.cycle l) ∧
      (c.cpu.pend = [] → c.cpu.moves = [] → c.cpu.array.q = [] → c.cpu.array.run = [] →
        IssuesTo s n c (.semaphoreUpdate n) { Cpu.clockAt l c.cpu with sups := [], sems, evals := [(mn.toNat, made)] }))

/-- R117, R135, R146, R192, R195: a wait is registered for its engine in its cycle of issue and evaluated at the end of that cycle; a condition that holds
then satisfies it, and a consuming wait takes its target from the count in the same update.
What it says beyond the rules is the model's choice: log entry 9. -/
def Obligations.WaitRegistration : Prop :=
  ∀ (s : State) (n : Nat) (c : Core) (mn : BitVec 6) (consume : Bool) (target : BitVec 16), Issuing s n c → c.cpu.Quiet → mn.toNat < 48 →
    let count := c.cpu.sem mn.toNat
    (∀ w ∈ c.cpu.waits, w.eng ≠ engArr ∧ (w.sem = mn.toNat → w.wakeAt = none → count < w.target)) →
    let after (e : Nat) (u : Cpu) : Cpu :=
      if count < target.toNat then { u with waits := c.cpu.waits ++ [⟨c.cpu.cycle, e, mn.toNat, target.toNat, consume, none⟩] }
      else { u with waits := c.cpu.waits ++
                      [⟨c.cpu.cycle, e, mn.toNat, target.toNat, consume, some (c.cpu.cycle + Cpu.readyDist c.cpu mn.toNat e)⟩]
                    sems := if consume then c.cpu.sems.set mn.toNat (BitVec.ofNat 16 (count - target.toNat)) else c.cpu.sems }
    IssuesTo s n c (.semW n mn consume target) (after engSeq (c.cpu.past none)) ∧
    IssuesTo s n c (.vwait n mn consume target) (after engVec (c.cpu.past none)) ∧
    IssuesTo s n c (.mwait n mn consume target)
      (after engArr { c.cpu.past none with array := { c.cpu.array with q := [.wait mn.toNat target.toNat consume] } })

/-- R194, R195, R274: the count of a semaphore that has reached a waiter's target satisfies the wait at the end of the cycle, and a consuming wait takes the
target; the waiter then resumes in its cycle, the array past its MWAIT, the fetch/store engine with its head descriptor ready to start.
What it says beyond the rules is the model's choice: log entries 9, 12. -/
def Obligations.WaitersWake : Prop :=
  ∀ (s : State) (n : Nat) (c : Core) (reg k target : Nat) (consume : Bool), s.core? n = some c → c.cpu.st ≠ .fenced → c.cpu.pend = [] →
    c.cpu.moves = [] → c.cpu.sups = [] → c.cpu.array.run = [] → k < 48 →
    (∀ made e, c.cpu.array.q = [] → c.cpu.evals = [(k, made)] → c.cpu.waits = [⟨reg, e, k, target, consume, none⟩] → target ≤ c.cpu.sem k →
      let x := if reg = c.cpu.cycle then c.cpu.cycle + Cpu.readyDist c.cpu k e else max c.cpu.cycle (made + Cpu.wakeDist c.cpu k e)
      let sems := if consume then c.cpu.sems.set k (BitVec.ofNat 16 (c.cpu.sem k - target)) else c.cpu.sems
      (e ∈ [engSeq, engVec] → IssuesTo s n c (.waiterWake n e) { Cpu.clockAt x c.cpu with waits := [], evals := [], sems }) ∧
      (e ∈ [engArr, engFsd] → Issuing s n c →
        IssuesTo s n c (.nop n) { c.cpu.past none with waits := [⟨reg, e, k, target, consume, some x⟩], evals := [], sems })) ∧
    (∀ x, c.cpu.evals = [] →
      (∀ e ∈ [engSeq, engVec], c.cpu.array.q = [] → c.cpu.waits = [⟨reg, e, k, target, consume, some x⟩] →
        IssuesTo s n c (.waiterWake n e) { Cpu.clockAt x c.cpu with waits := [] }) ∧
      (∀ q, c.cpu.waits = [⟨reg, engArr, k, target, consume, some x⟩] → c.cpu.array.q = .wait k target consume :: q →
        (∀ i ∈ q, ∃ e, i = QItem.entry e) →
        IssuesTo s n c (.waiterWake n engArr)
          { Cpu.clockAt x c.cpu with waits := [], array := { c.cpu.array with q := q, readyAt := max c.cpu.array.readyAt x } }) ∧
      (∀ i rest, c.cpu.array.q = [] → c.cpu.waits = [⟨reg, engFsd, k, target, consume, some x⟩] → c.dma.q = i :: rest → i.phase = .queued →
        (∀ j ∈ rest, j.uid ≠ i.uid) →
        ∃ t d, exec (.waiterWake n engFsd) s = .next t ∧ t.core? n = some d ∧ d.cpu.waits = [] ∧ d.dma.q = { i with phase := .woken } :: rest ∧
          OnlyCore n s t))

/-- R57, R119: WAIT.T holds issue: two cycles for a target that the core's copy of time has passed, else until the copy, which is within 2 ns of fabric time,
has reached its target and two cycles more; TIME.RD reads fabric time within 2 ns, never less than it read before.
What it says beyond the rules is the model's choice: log entries 1, 46. -/
def Obligations.CoreTime : Prop :=
  ∀ (s : State) (n : Nat) (c : Core) (sa sd : Fin 32),
    (Issuing s n c → c.cpu.Quiet →
      ∃ v, c.cpu.timeCopy ≤ v ∧ (v ≤ s.now + 2 ∨ v = c.cpu.timeCopy) ∧ s.now ≤ v + 2 ∧
        (let target := (c.cpu.sreg sa).toNat
         IssuesTo s n c (.waitT n sa) { c.cpu.past none with seqTime := some (target, c.cpu.cycle, decide (target ≤ v)), timeCopy := v }) ∧
        IssuesTo s n c (.timeRd n sd) { c.cpu.past none with timeCopy := v, sregs := c.cpu.sregs.set sd (BitVec.ofNat 64 v) }) ∧
    (∀ x t0 past, s.core? n = some c → c.cpu.st ≠ .fenced → c.cpu.Quiet → c.cpu.seqTime = some (x, t0, past) →
      let resumed (y : Nat) : Cpu := { Cpu.clockAt y c.cpu with seqTime := none, timeCopy := max c.cpu.timeCopy x }
      (past = true → IssuesTo s n c (.waitTResume n) (resumed (t0 + 2))) ∧
      (past = false → x ≤ s.now → ∃ k < 5, IssuesTo s n c (.waitTResume n) (resumed (max (t0 + 2) (s.cyclesAt c (x + k - 2) + 2)))))

/-- R40, R101, R120, R121, R124, R368, R431, R432: MARK puts its record in the core's trace queue and changes no core state; DMAI offers the descriptor at its aligned scratch
address, which enters the queue when it holds fewer than 64, and the comparator tells which. A bundle of no-ops moves the program counter; END stops issue; once nothing of
the program is under way the core is IDLE, its cell has ended, and the job whose every cell has ended is ENDED. -/
def Obligations.MarkDmaiAndEnd : Prop :=
  ∀ (s : State) (n : Nat) (c : Core) (sa : Fin 32) (kd : Fin 8), (Issuing s n c → c.cpu.Quiet →
    (∀ (id : BitVec 16) (j : Nat), c.job = some j → (s.job j).caps = [] → id.toNat < 0xFFF0 → c.obs.queue.length < 16 →
      (s.trcs.getD (dieOf c.phys) Trc.reset).state ≠ 0 →
      ∃ t d r, exec (.mark n sa id) s = .next t ∧ t.core? n = some d ∧ d.cpu = c.cpu.past none ∧ d.obs.queue = c.obs.queue ++ [r] ∧
        fieldAt r 0 8 = s.now % 2 ^ 64 ∧ fieldAt r 8 1 = 1 ∧ fieldAt r 16 2 = id.toNat ∧ fieldAt r 18 2 = c.cpu.pc % 2 ^ 16 ∧
        fieldAt r 20 4 = (c.cpu.sreg sa).toNat % 2 ^ 32 ∧ OnlyCore n s { t with jobs := s.jobs }) ∧
    (c.dma.q.length < 64 →
      ∃ t d i, exec (.dmai n kd sa) s = .next t ∧ t.core? n = some d ∧ d.cpu.cycle = c.cpu.cycle + 1 ∧ d.cpu.ks = c.cpu.ks.set kd true ∧
        d.dma.q = c.dma.q ++ [i] ∧ i.phase = .queued ∧
        i.raw = c.cpu.scratch.readWrap scratchBytes ((c.cpu.sreg sa).toNat % scratchBytes / 64 * 64) 64 ∧ OnlyCore n s t) ∧
    (64 ≤ c.dma.q.length → IssuesTo s n c (.dmai n kd sa) { c.cpu.past none with ks := c.cpu.ks.set kd false }) ∧
    IssuesTo s n c (.nop n) (c.cpu.past none) ∧ IssuesTo s n c (.endOp n) { c.cpu.past none with ended := true }) ∧
    (∀ j, s.core? n = some c → c.cpu.st = .running → c.cpu.ended = true → c.cpu.held = 0 → c.dma.q = [] → c.withheld = false → c.job = some j →
      j < s.jobs.length → (s.job j).state = 4 →
      ∃ t d, exec (.coreComplete n) s = .next t ∧ t.core? n = some d ∧ d.cpu = { c.cpu with st := .idle, ended := false } ∧
        (t.job j).cells = modAt (s.job j).cells c.cell (fun x => { x with ended := true }) ∧
        (t.job j).state = if ((t.job j).cells.all (·.ended)) then 6 else 4)

/-- R60, R63, R64, R125: loads and stores of lead data memory: offset bits 15:0 of the sum, aligned down to the access size; a load's zero-extended
value is on its way for three cycles (a byte that an arrival writes in the cycle of the load is the old or the new one), a store lands after one; on an
ordinary core each is a no-op. -/
def Obligations.LeadMemoryAccess : Prop :=
  ∀ (s : State) (n : Nat) (c : Core) (sx sa : Fin 32) (imm : BitVec 14), Issuing s n c → c.cpu.Quiet →
    let off (k : Nat) : Nat := (c.cpu.sreg sa + imm.signExtend 64).toNat % 65536 / k * k
    (∀ p ∈ ([(Instr.ldB, 1), (.ldH, 2), (.ldW, 4), (.ldD, 8)] : List ((Nat → Fin 32 → Fin 32 → BitVec 14 → Instr) × Nat)),
      (c.cpu.lead = true → ∃ v, IssuesTo s n c (p.1 n sx sa imm) { c.cpu.past none with pend := [⟨c.cpu.cycle + 3, .sreg sx v⟩] } ∧
        (c.cpu.leadWas = [] → v = BitVec.ofNat 64 (leNat (c.cpu.leadMem.readWrap 65536 (off p.2) p.2)))) ∧
      (c.cpu.lead = false → IssuesTo s n c (p.1 n sx sa imm) (c.cpu.past none))) ∧
    (∀ p ∈ ([(Instr.stB, 1), (.stH, 2), (.stW, 4), (.stD, 8)] : List ((Nat → Fin 32 → Fin 32 → BitVec 14 → Instr) × Nat)),
      IssuesTo s n c (p.1 n sx sa imm) (if c.cpu.lead then
        { c.cpu.past none with leadMem := c.cpu.leadMem.writeWrap 65536 (off p.2) (leBytes p.2 (c.cpu.sreg sx).toNat) }
        else c.cpu.past none))

/-- R61, R64, R126: FP64 operations and conversions of a lead core: correctly rounded results, a quiet NaN of open payload where the result is NaN, on their
way for the latency of the operation.
What it says beyond the rules is the model's choice: log entry 10. -/
def Obligations.LeadFloatingPoint : Prop :=
  ∀ (s : State) (n : Nat) (c : Core) (sd sa sb sc : Fin 32), Issuing s n c → c.cpu.Quiet → c.cpu.lead = true →
    let a := fp64.decode (c.cpu.sreg sa).toNat
    let b := fp64.decode (c.cpu.sreg sb).toNat
    let d := fp64.decode (c.cpu.sreg sc).toNat
    let gives (i : Instr) (lat code : Nat) : Prop := ∃ v : Word,
      IssuesTo s n c i { c.cpu.past none with pend := [⟨c.cpu.cycle + lat, .sreg sd v⟩] } ∧
        if (fp64.decode code).isNan then v.toNat / 2 ^ 51 % 2 ^ 12 = 0xFFF else v = BitVec.ofNat 64 code
    gives (.faddD n sd sa sb) 4 (fp64.rn (a.add b)) ∧ gives (.fsubD n sd sa sb) 4 (fp64.rn (a.add b.neg)) ∧
    gives (.fmulD n sd sa sb) 4 (fp64.rn (a.mul b)) ∧ gives (.fmaD n sd sa sb sc) 4 (fp64.rn ((a.mul b).add d)) ∧
    gives (.fdivD n sd sa sb) 24 (fp64.div a b) ∧ gives (.fsqrtD n sd sa) 24 (fp64.sqrt a) ∧
    gives (.cvtDF n sd sa) 4 (fp64.rn (fp32.decode ((c.cpu.sreg sa).toNat % 2 ^ 32))) ∧
    IssuesTo s n c (.cvtDL n sd sa)
      { c.cpu.past none with pend := [⟨c.cpu.cycle + 4, .sreg sd (BitVec.ofNat 64 (fp64.rn (Value.ofInt (c.cpu.sreg sa).toInt)))⟩] } ∧
    IssuesTo s n c (.cvtLD n sd sa) { c.cpu.past none with pend := [⟨c.cpu.cycle + 4, .sreg sd (toI64 a)⟩] } ∧
    (∃ v : Word, IssuesTo s n c (.cvtFD n sd sa) { c.cpu.past none with pend := [⟨c.cpu.cycle + 4, .sreg sd v⟩] } ∧
      if a.isNan then v.toNat / 2 ^ 22 % 2 ^ 9 = 0x1FF ∧ v.toNat < 2 ^ 32 else v = BitVec.ofNat 64 (fp32.rn a)) ∧
    ∀ (kd : Fin 8), ∀ p ∈ fpConds,
      IssuesTo s n c (.fcmpD n kd p.1 sa sb) { c.cpu.past none with pend := [⟨c.cpu.cycle + 4, .kreg kd (p.2 a b)⟩] }

/-- R129, R131: TCFG gives the tile the configuration its word names; TCFG with rel = 1 releases the tile. -/
def Obligations.TileConfiguration : Prop :=
  ∀ (s : State) (n : Nat) (c : Core) (tn : Fin 16) (sa : Fin 32) (al : Bool), Issuing s n c → c.cpu.Quiet →
    (let w := (c.cpu.sreg sa).toNat
     let cfg : TileCfg :=
      { base := w % 2 ^ 10, rows := w / 2 ^ 10 % 2 ^ 8 + 1, fmt := w / 2 ^ 18 % 2 ^ 4, cols := w / 2 ^ 22 % 2 ^ 8 + 1, block := w / 2 ^ 30 % 4
        scaleBase := w / 2 ^ 32 % 2 ^ 10, shared := al }
     tcfgFaults c.cpu.tiles tn cfg = false →
      IssuesTo s n c (.tcfg n tn sa al) { c.cpu.past none with tiles := c.cpu.tiles.set tn (some cfg) }) ∧
    IssuesTo s n c (.tcfgRelease n tn) { c.cpu.past none with tiles := c.cpu.tiles.set tn none }

/-- R107, R108, R130, R395: a bundle with a faulting slot has no effect: the core stops and CORE_FAULT takes the code, the bundle's address and the slot,
unless it holds a fault already; under the policy HALT the job is stopped. -/
def Obligations.PreciseFault : Prop :=
  ∀ (s : State) (n j : Nat) (c : Core) (i : Instr) (code slot : Nat), Issuing s n c → c.cpu.Quiet → c.job = some j → (s.job j).state = 4 →
    ((∃ tn sa al, i = .tcfg n tn sa al ∧ code = 1 ∧ slot = 2 ∧ tcfgFaults c.cpu.tiles tn.val (cfgOfWord (c.cpu.sreg sa).toNat al) = true) ∨
     (∃ mn v, 48 ≤ mn.toNat ∧ i ∈ [Instr.semInc n mn v, .semSet n mn v, .semW n mn true v] ∧ code = 3 ∧ slot = 3) ∨
     (∃ kd cond sa sb, (cond = 6 ∨ cond = 7 ∨ 14 ≤ cond.toNat) ∧ i = .cmp n kd cond sa sb ∧ code = 3 ∧ slot = 3) ∨
     (∃ kd ka kb, i = .kop n kd ka kb 7 ∧ code = 3 ∧ slot = 3) ∨
     (∃ sa sb mn arr, 48 ≤ mn.toNat ∧ i ∈ [Instr.mma n sa sb mn arr, .mmaT n sa sb mn arr] ∧ code = 3 ∧ slot = 2) ∨
     (∃ mn v, 48 ≤ mn.toNat ∧ i = .mwait n mn true v ∧ code = 3 ∧ slot = 2) ∨
     (∃ mn v, 48 ≤ mn.toNat ∧ i ∈ [Instr.vsig n mn v, .vwait n mn true v] ∧ code = 3 ∧ slot = 1) ∨
     (∃ td a b cr, 80 ≤ a.toNat ∧ i ∈ [Instr.vopAdd n td a b cr, .vopMov n td a b cr, .vredSum n td a b cr 0] ∧ code = 3 ∧ slot = 1)) →
    ∃ t d, exec i s = .next t ∧ t.core? n = some d ∧
      d.cpu = { Cpu.clockAt (c.cpu.cycle + 1) c.cpu with st := .stopped, flt := if c.cpu.flt.valid then c.cpu.flt else ⟨code, c.cpu.pc, slot, 0, true⟩ } ∧
      ((s.job j).policy = 0 → j < s.jobs.length → (t.job j).state = 7)

/-- R82, R104, R133: LDS and LDS.T bring block (kslice, nblock) of the stationary group towards the shadow, zeros beyond its rows and columns, in two cycles,
or three for a transposed read at half rate. -/
def Obligations.StationaryLoad : Prop :=
  ∀ (s : State) (n : Nat) (c : Core) (tg : Fin 16) (g : BitVec 2) (ks : BitVec 5) (nb : BitVec 3) (arr : BitVec 2) (tr : Bool), Issuing s n c →
    c.cpu.Quiet →
    let group := (List.range (g.toNat + 1)).map fun j => c.cpu.tile ((tg.val + j) % 16)
    let K := groupK group tr
    let N := groupN group tr
    let a := arrOf arr.toNat K (fmtE (c.cpu.tile tg).fmt)
    let re := arrRows a * fmtE (c.cpu.tile tg).fmt
    ∃ b : Block, IssuesTo s n c (if tr then .ldsT n tg g ks nb arr else .lds n tg g ks nb arr)
        { c.cpu.past none with
          pend := [⟨c.cpu.cycle + (if tr && halfRate (c.cpu.tile tg).fmt then 3 else 2), .shadow b⟩] } ∧
      b.arr = a ∧ b.fmt = (c.cpu.tile tg).fmt ∧ b.bad = !groupFits group ∧ b.vals.length = re ∧
      ∀ k col, k < re → col < arrCols a →
        ((b.vals.getD k []).getD col .zero) =
          if ks.toNat * re + k < K ∧ nb.toNat * arrCols a + col < N then
            groupElem c.cpu.vfile group tr (ks.toNat * re + k) (nb.toNat * arrCols a + col) else .zero

/-- R83, R88, R134: SWAP exchanges the blocks at once when the array is idle and waits in the pass queue while a pass streams; an MMA-family instruction
enters the pass queue with the words it captures, and one that finds four held sets PASS_OVERRUN and does nothing else.
What it says beyond the rules is the model's choice: log entry 50. -/
def Obligations.ArrayIssue : Prop :=
  ∀ (s : State) (n : Nat) (c : Core) (sa sb : Fin 32) (sem : BitVec 6) (arr : BitVec 2), Issuing s n c →
    (c.cpu.Quiet → c.cpu.array.run = [] → c.cpu.array.wave = none →
      IssuesTo s n c (.swap n) { c.cpu.past none with
        array := { c.cpu.array with active := c.cpu.array.shadow, shadow := c.cpu.array.active, shadowFree := c.cpu.cycle + 1 } }) ∧
    (c.cpu.pend = [] → c.cpu.moves = [] → c.cpu.sups = [] → c.cpu.evals = [] →
      let streams (run : List PassRun) (q : List QItem) : Cpu := { c.cpu.past none with array := { c.cpu.array with q := q, run := run } }
      (c.cpu.array.q = [] → c.cpu.array.run ≠ [] → c.cpu.cycle < c.cpu.array.streamEnd →
        ∃ run, SameRun run c.cpu.array.run ∧ IssuesTo s n c (.swap n) (streams run [.swap c.cpu.cycle])) ∧
      ((∀ i ∈ c.cpu.array.q, ∃ e, i = QItem.entry e) →
        (c.cpu.held < 4 → sem.toNat < 48 → ∀ tr : Bool, ∃ (e : Entry) (run : List PassRun), SameRun run c.cpu.array.run ∧
          IssuesTo s n c (if tr then .mmaT n sa sb sem arr else .mma n sa sb sem arr) (streams run (c.cpu.array.q ++ [.entry e])) ∧
          (let w := (c.cpu.sreg sa).toNat
           let v := (c.cpu.sreg sb).toNat
           e.issued = c.cpu.cycle ∧ e.m = w % 2 ^ 12 + 1 ∧ e.n = w / 2 ^ 12 % 2 ^ 8 + 1 ∧ e.k = w / 2 ^ 20 % 2 ^ 8 + 1 ∧ e.dest = w / 2 ^ 28 % 2 ^ 6 ∧
           e.acc = w.testBit 34 ∧ e.statT = w.testBit 41 ∧ e.addr = 64 * (v / 2 ^ 6 % 2 ^ 15) ∧ e.pitch = v / 2 ^ 21 % 2 ^ 12 ∧
           e.fmt = v / 2 ^ 33 % 2 ^ 4 ∧ e.block = v / 2 ^ 37 % 4 ∧ e.feedT = tr ∧ e.sem = sem.toNat ∧ e.next = 0 ∧ e.arr = arrOf arr.toNat e.k (fmtE e.fmt) ∧
           e.restart = false ∧ e.direct = false ∧
           e.stats = (List.range (w / 2 ^ 39 % 4 + 1)).map (fun j => c.cpu.tile ((w / 2 ^ 35 % 16 + j) % 16)))) ∧
        (4 ≤ c.cpu.held → sem.toNat < 48 → ∀ i ∈ [Instr.mma n sa sb sem arr, .mmaT n sa sb sem arr],
          ∃ run, SameRun run c.cpu.array.run ∧ IssuesTo s n c i { streams run c.cpu.array.q with passOverrun := true })))

/-- R74, R85, R90, R93, R94: the next pass of the entry at the queue's head streams its rows, which the feeder queues bring from scratch, commits forty cycles
after their last, and gives the entry up with its last pass; a pass after the first has its block loaded by the fold logic. R80, R89: the oldest pass
commits: its sums are on their way to the accumulators for four cycles, replacing or adding to what is there, and the last pass of an instruction signals
its semaphore. R51: a pass that starves delays the pass behind it by as many cycles.
What it says beyond the rules is the model's choice: log entries 10, 12, 49, 50. -/
def Obligations.PassesOfTheArray : Prop :=
  ∀ (s : State) (n : Nat) (c : Core), s.core? n = some c → (c.cpu.st = .running ∨ c.cpu.st = .stopped) → c.cpu.pend = [] → c.cpu.moves = [] →
    c.cpu.sups = [] → c.cpu.waits = [] → c.cpu.evals = [] →
    (∀ e, c.cpu.array.q = [.entry e] → e.direct = false →
      let at0 := max e.issued (max c.cpu.array.streamEnd c.cpu.array.readyAt)
      let f := foldOf e
      ∃ t d r run, exec (.passStart n) s = .next t ∧ OnlyCore n s t ∧ t.core? n = some d ∧ d.cpu.array.run = run ++ [r] ∧ SameRun run c.cpu.array.run ∧
        r.start = (if e.next = 0 then at0 else max at0 (c.cpu.array.lastStart + foldCycles e)) ∧
        d.cpu.array.streamEnd = r.start + passCycles e e.next ∧ r.commitAt = r.start + passCycles e e.next + 40 ∧ r.idx = e.next ∧ r.entry = e ∧
        r.adds = (e.acc || e.next % f.slices != 0) ∧
        r.block = (if e.next = 0 then c.cpu.array.active else
          let b := loadBlock c.cpu.vfile e.stats e.statT e.arr (e.next % f.slices) (e.next / f.slices % f.blocks) e.k e.n
          { b with bad := b.bad || c.cpu.array.taint }) ∧
        r.rows = (List.range (min (passRows e e.next) (queueRows e.arr))).map (streamRow c.cpu.scratch e e.next) ∧
        d.cpu.array.q = if e.next + 1 = e.passes then [] else [.entry { e with next := e.next + 1, direct := e.restart }]) ∧
    (∀ r, c.cpu.array.run = [r] → c.cpu.array.q = [] → r.bad = false → wrappedTiles r.entry = [] → r.entry.saw = [] → c.cpu.cycle ≤ r.commitAt →
      r.start + passCycles r.entry r.idx ≤ r.commitAt →
      let full := (List.range (passRows r.entry r.idx)).map (streamRow c.cpu.scratch r.entry r.idx)
      r.rows = full.take r.rows.length →
      let sums := ({ r with rows := full } : PassRun).sums
      let d := if c.cpu.banked then Cpu.engDistTo c.cpu engArr r.entry.sem else 4
      let old (k : Nat) : Value := fp32.decode (c.cpu.accs.getBits accBytes (k * 32) 32)
      ∃ es : List Elem, es.length = sums.length ∧
        (∀ (i : Nat) (p : Nat × Nat), sums[i]? = some p → ∃ v, es[i]? = some (⟨p.1 * 32, 32, v⟩ : Elem) ∧
          let code := if r.adds then fp32.rn ((old p.1).add (fp32.decode p.2)) else p.2
          if (fp32.decode code).isNan then v / 2 ^ 22 % 2 ^ 9 = 0x1FF ∧ v < 2 ^ 32 else v = code) ∧
        IssuesTo s n c (.passCommit n)
          { Cpu.clockAt r.commitAt c.cpu with
            array := { c.cpu.array with run := [] }, pend := [⟨r.commitAt + 4, .acc es⟩]
            sups := if r.last && decide (r.entry.sem < 48) then [⟨max (r.commitAt + d) (r.commitAt + 4), r.entry.sem, false, 1, r.commitAt + d⟩] else [] }) ∧
    (∀ r q, c.cpu.array.run = [r, q] → r.commitAt ≤ c.cpu.cycle →
      let k := c.cpu.cycle - r.commitAt
      ∃ t d q', exec (.passCommit n) s = .next t ∧ OnlyCore n s t ∧ t.core? n = some d ∧ d.cpu.array.run = [q'] ∧ q'.start = q.start + k ∧
        q'.commitAt = q.commitAt + k ∧ d.cpu.array.streamEnd = c.cpu.array.streamEnd + k)

/-- R64, R132, R138-R140, R154, R158, R170: an elementwise operation on slices of accumulators, tiles and scalar registers: a result for each element of
slice i of the destination, each converted to its format (those of a block under its scale), on their way for four cycles; of the transcendental functions
the results that the rule fixes. An operand or destination that does not hold a slice leaves the results open, and no more.
What it says beyond the rules is the model's choice: log entries 2, 6, 47. -/
def Obligations.ElementwiseResults : Prop :=
  ∀ p ∈ vops, ∀ (s : State) (n : Nat) (c : Core) (td cr : Fin 16) (a b : BitVec 7), Issuing s n c → c.cpu.Quiet → a.toNat < 80 →
    (p.2.1 = true → b.toNat < 112) →
    let t := c.cpu.tile td
    let i := (c.cpu.lcs.getD cr 0).toNat
    let E := if opWide c.cpu a.toNat || (p.2.1 && opWide c.cpu b.toNat) || t.fmt == 0 then 64 else 128
    let gives (es : List Elem) : Prop := IssuesTo s n c (p.1 n td a b cr) { c.cpu.past none with pend := [⟨c.cpu.cycle + 4, .tile es⟩] }
    (∃ es, gives es) ∧
    (opFits c.cpu E a.toNat → (p.2.1 = true → opFits c.cpu E b.toNat) → E ≤ t.rows * t.cols →
      ∃ rs : List Value, rs.length = E ∧
        (∀ k < E, p.2.2 (opElem c.cpu a.toNat E i k) (opElem c.cpu b.toNat E i k) (t.elem c.cpu.vfile (E * i + k)) (rs.getD k .zero)) ∧
        (fmtScaled t.fmt = false → ∃ es, gives es ∧
          ∀ k < E, es[k]? = some ⟨t.elemPos (E * i + k), t.width, ((fmtOf t.fmt).conv .nearest false (rs.getD k .zero)).code⟩) ∧
        (fmtScaled t.fmt = true → t.cols % blockSize t.block = 0 → blockSize t.block ≤ E →
          gives (convertOut t (E * i) false (fun _ => .nearest) rs).elems))

/-- R132, R141, R142, R492: a reduction of slices, combined with the element it goes to, on its way for twelve cycles, or with the register it goes to,
for sixteen. An operand that does not hold a slice leaves the result open, and no more.
What it says beyond the rules is the model's choice: log entry 47. -/
def Obligations.ReductionResults : Prop :=
  ∀ p ∈ reds, ∀ (s : State) (n : Nat) (c : Core) (td cr : Fin 16) (a b : BitVec 7) (sd : Fin 32) (sh : BitVec 2), Issuing s n c → c.cpu.Quiet →
    a.toNat < 80 → (p.1 = .dot → b.toNat < 112) →
    let i := (c.cpu.lcs.getD cr 0).toNat
    let t := c.cpu.tile td
    let wide := opWide c.cpu a.toNat || (p.1 == .dot && opWide c.cpu b.toNat)
    let fits (E : Nat) : Prop := opFits c.cpu E a.toNat ∧ (p.1 = .dot → opFits c.cpu E b.toNat)
    let join (E : Nat) (old : W32) : W32 :=
      let r := p.2 (opSlice c.cpu a.toNat E i) (opSlice c.cpu b.toNat E i)
      if p.1 = .max then f32max old r else f32add old r
    (let E := if wide then 64 else 128
     ∃ v, IssuesTo s n c (redScalar p.1 n sd a b cr) { c.cpu.past none with pend := [⟨c.cpu.cycle + 16, .sreg sd v⟩] } ∧
       (fits E → v = (join E ((c.cpu.sreg sd).setWidth 32)).setWidth 64)) ∧
    (let E := if wide || t.fmt == 0 then 64 else 128
     let k := i / 2 ^ sh.toNat
     let v := ofF32 (join E (toF32 (t.elem c.cpu.vfile k)))
     ∃ es : List Elem, IssuesTo s n c (redTile p.1 n td a b cr sh) { c.cpu.past none with pend := [⟨c.cpu.cycle + 12, .tile es⟩] } ∧
       (fits E → fmtScaled t.fmt = false → es[0]? = some ⟨t.elemPos k, t.width, ((fmtOf t.fmt).conv .nearest false v).code⟩) ∧
       (fits E → fmtScaled t.fmt = true → v.isFin = true → es[0]? = some
         ⟨t.elemPos k, t.width, blockElem (fmtOf t.fmt) .nearest (c.cpu.vfile.getBits vfileBytes (t.scalePos (t.scaleIdx k)) 8) v⟩))

/-- R132, R143-R145, R159-R161, R163, R169: conversion to nearest or with the random bits of the element's position, with the OVF flag behind it; random
words; the weight update with its remainder. A tile that does not hold a slice, or of another format, leaves the results open, and no more.
What it says beyond the rules is the model's choice: log entry 47. -/
def Obligations.ConversionRandomAndUpdate : Prop :=
  ∀ (s : State) (n : Nat) (c : Core) (td tq cr : Fin 16) (a : BitVec 7) (ss : Fin 32) (g : Bool), Issuing s n c → c.cpu.Quiet → a.toNat < 80 →
    let i := (c.cpu.lcs.getD cr 0).toNat
    let t := c.cpu.tile td
    let q := c.cpu.tile tq
    let fits (u : TileCfg) (E : Nat) : Prop := E ≤ u.rows * u.cols
    let rand (E k : Nat) : W32 := randWord c.cpu.seed ((c.cpu.sreg ss).setWidth 32) ((c.cpu.sreg ss >>> 32).setWidth 32)
      (c.cpu.sreg ((ss.val + 1) % 32) + BitVec.ofNat 64 (E * i + k))
    (let E := if opWide c.cpu a.toNat || t.fmt == 0 then 64 else 128
     let lat := if fmtScaled t.fmt then 8 else 6
     let mode (k : Nat) : RMode := if g then .stoch (rand E k).toNat else .nearest
     let x (k : Nat) : Value := opElem c.cpu a.toNat E i k
     let gives (es : List Elem) (ovf : Bool) : Prop := IssuesTo s n c (.cvt n td a ss cr g)
       { c.cpu.past none with pend := ⟨c.cpu.cycle + lat, .tile es⟩ :: if ovf then [⟨c.cpu.cycle + lat, .ovf true⟩] else [] }
     (∃ es ovf, gives es ovf) ∧
     (opFits c.cpu E a.toNat → fits t E →
       (fmtScaled t.fmt = false →
         let out (k : Nat) : Conv := (fmtOf t.fmt).conv (mode k) g (x k)
         ∃ es, gives es (g && (List.range E).any fun k => (out k).special) ∧ ∀ k < E, es[k]? = some ⟨t.elemPos (E * i + k), t.width, (out k).code⟩) ∧
       (fmtScaled t.fmt = true → t.cols % blockSize t.block = 0 → blockSize t.block ≤ E →
         gives (convertOut t (E * i) g mode ((List.range E).map x)).elems (g && (List.range E).any fun k => !(x k).isFin)))) ∧
    (∃ es : List Elem, IssuesTo s n c (.rng n td ss cr) { c.cpu.past none with pend := [⟨c.cpu.cycle + 10, .tile es⟩] } ∧
      (t.fmt = 0 → fits t 64 → ∀ k < 64, es[k]? = some ⟨t.elemPos (64 * i + k), 32, (rand 64 k).toNat⟩)) ∧
    (let E := if opWide c.cpu a.toNat || t.fmt == 0 || q.fmt == 0 then 64 else 128
     ∃ es fs : List Elem, IssuesTo s n c (.updc n td a tq cr)
         { c.cpu.past none with pend := [⟨c.cpu.cycle + 8, .tile es⟩, ⟨c.cpu.cycle + 8, .tile fs⟩] } ∧
       (t.fmt = 1 → q.fmt = 1 → (64 ≤ a.toNat → (c.cpu.tile (a.toNat - 64)).fmt ≤ 1) → opFits c.cpu E a.toNat → fits t E → fits q E → ∀ k < E,
         let v := fp32.decode (fp32.rn (((t.elem c.cpu.vfile (E * i + k)).add (q.elem c.cpu.vfile (E * i + k))).add (opElem c.cpu a.toNat E i k)))
         let w := bf16.rn v
         es[k]? = some ⟨t.elemPos (E * i + k), 16, w⟩ ∧
         fs[k]? = some ⟨q.elemPos (E * i + k), 16, if v.isFin && (bf16.decode w).isFin then bf16.rn (v.add (bf16.decode w).neg) else 0⟩))

/-- R50, R104, R148, R149: a move instruction reads its rows one in each cycle from its issue on, each row landing six cycles after its read: the first two have
been read when the next cycle begins, the others are still to be read.
What it says beyond the rules is the model's choice: log entry 8. -/
def Obligations.MoveInstructions : Prop :=
  ∀ (s : State) (n : Nat) (c : Core) (tn cr : Fin 16) (sa : Fin 32) (aa : Fin 64) (row0 nm1 : BitVec 5), Issuing s n c → c.cpu.Quiet →
    let t := c.cpu.tile tn
    let w := (c.cpu.sreg sa).toNat
    let rows := w / 2 ^ 41 % 2 ^ 8 + 1
    let reg (i : Nat) : Nat := t.base + (w / 2 ^ 33 % 2 ^ 8 + i) % t.rows
    let addr (i : Nat) : Nat := (w / 2 ^ 6 % 2 ^ 15 * 64 + 64 * (w / 2 ^ 21 % 2 ^ 12) * i) % scratchBytes
    let k := (c.cpu.lcs.getD cr 0).toNat
    let regA (i : Nat) : Nat := t.base + (k + i) % t.rows
    let row (i : Nat) : Nat := aa.val * 32 + (row0.toNat + i) % 32
    let fit := t.fmt == 0 && t.cols == 32
    let runs (i : Instr) (count : Nat) (read : Nat → Act) (lands : Nat → Act → Prop) : Prop :=
      ∃ t' d, exec i s = .next t' ∧ OnlyCore n s t' ∧ t'.core? n = some d ∧
        (∃ pend, d.cpu = { c.cpu.past none with pend, moves := [(c.cpu.cycle + count + 5, (List.range count).map read)] }) ∧
        (∀ i, 2 ≤ i → i < count → ⟨c.cpu.cycle + i, read i⟩ ∈ d.cpu.pend) ∧ ∀ i < 2, i < count → ∃ a, ⟨c.cpu.cycle + i + 6, a⟩ ∈ d.cpu.pend ∧ lands i a
    runs (.tld n tn sa) rows (fun i => .readTld (reg i) (addr i) t.width)
      (fun i a => ∃ es, a = .row es (some (addr i)) ∧ (i = 1 ∨ c.cpu.dmaWas = [] → es = rowElems scratchBytes c.cpu.scratch (addr i) (reg i * 1024) t.width)) ∧
    runs (.tst n tn sa) rows (fun i => .readTst (reg i) (addr i) t.width)
      (fun i a => a = .scr (scrRow (addr i) (rowElems vfileBytes c.cpu.vfile (reg i * 128) 0 t.width))) ∧
    runs (.ard n tn aa row0 nm1 cr) (nm1.toNat + 1) (fun i => .readArd (regA i) (row i) fit)
      (fun i a => ∃ es, a = .row es none ∧ (fit = true → es = rowElems accBytes c.cpu.accs (row i * 128) (regA i * 1024) 32))

/-- R64, R84, R106, R148, R149: the one result in flight on a core lands in its cycle, wherever it goes; a row that is read then lands six cycles later.
What it says beyond the rules is the model's choice: log entry 12. -/
def Obligations.ResultsLand : Prop :=
  ∀ (s : State) (n d : Nat) (c : Core) (a : Act), s.core? n = some c → c.cpu.st ≠ .fenced → c.cpu.moves = [] → c.cpu.sups = [] → c.cpu.evals = [] →
    c.cpu.array.q = [] → c.cpu.array.run = [] → c.cpu.pend = [⟨d, a⟩] →
    let u : Cpu := { Cpu.clockAt d c.cpu with pend := [] }
    let lands (v : Cpu) : Prop := IssuesTo s n c (.resultLand n) v
    (∀ r v, a = .sreg r v → lands { u with sregs := c.cpu.sregs.set r v }) ∧
    (∀ r v, a = .lc r v → lands { u with lcs := c.cpu.lcs.set r v }) ∧
    (∀ r v, a = .kreg r v → lands { u with ks := c.cpu.ks.set r v }) ∧
    (∀ v, a = .ovf v → lands { u with ovf := v }) ∧
    (∀ es, a = .tile es → lands { u with vfile := writeElems vfileBytes c.cpu.vfile es }) ∧
    (∀ es src, a = .row es src → lands { u with vfile := writeElems vfileBytes c.cpu.vfile es }) ∧
    (∀ es, a = .acc es → lands { u with accs := writeElems accBytes c.cpu.accs es }) ∧
    (∀ es, a = .scr es → lands
      { u with scratch := writeElems scratchBytes c.cpu.scratch es, tstWas := u.tstWas ++ oldElems scratchBytes c.cpu.scratch es }) ∧
    (∀ off bs, a = .lead off bs → lands { u with leadMem := c.cpu.leadMem.writeWrap leadBytes off bs }) ∧
    (∀ b, a = .shadow b → c.cpu.array.shadowFree ≤ d → lands { u with array := { c.cpu.array with shadow := b } }) ∧
    (∀ reg addr w, a = .readTld reg addr w → c.cpu.cycle < d ∨ c.cpu.dmaWas = [] →
      lands { u with pend := [⟨d + 6, .row (rowElems scratchBytes c.cpu.scratch addr (reg * 1024) w) (some addr)⟩] }) ∧
    (∀ reg addr w, a = .readTst reg addr w →
      lands { u with pend := [⟨d + 6, .scr (scrRow addr (rowElems vfileBytes c.cpu.vfile (reg * 128) 0 w))⟩] }) ∧
    (∀ reg row, a = .readArd reg row true →
      lands { u with pend := [⟨d + 6, .row (rowElems accBytes c.cpu.accs (row * 128) (reg * 1024) 32) none⟩] })

/-- R39, R101, R102, R110, R128, R137, R147: a core that issues the bundle at its program counter does what the manual's encoding of it spells: for every slot
instruction at every value of its operands, BUNDLE_ISSUE with that word in its slot and no-ops in the others completes in the state in which the instruction
completes.
What it says beyond the rules is the model's choice: log entry 20. -/
def Obligations.BundleIssueRunsTheEncoding : Prop :=
  ∀ (i : Instr) (s : State) (n slot w : Nat) (c : Core), slotWord i = some (n, slot, w) → s.core? n = some c →
    c.cpu.prog.readLE (16 * c.cpu.pc) 16 = w * 2 ^ (32 * slot) → ∃ t, exec (.bundleIssue n) s = .next t ∧ exec i s = .next t

/-- One step of the block takes the command at the front of its queue and runs it on the rest of the state; an empty queue idles (log entry 13). -/
def Obligations.StepRunsTheFrontCommand : Prop :=
  (∀ (s : State) (c : Instr) (rest : List Instr), s.pending = c :: rest → step s = exec c { s with pending := rest }) ∧
  ∀ s : State, s.pending = [] → step s = .next s

/-- R472, R473, R399, R483, R461, R442: a power-on reset, RESET_N, and the faults and watchdogs that reset the device. A fault drives FAULT_N low and is
recorded in the Ash log first.
What it says beyond the rules is the model's choice: log entries 35, 42. -/
def Obligations.DeviceResets : Prop :=
  ∀ s : State,
    (∃ t, exec .powerOnReset s = .next t ∧ t.inReset = true ∧ t.fw = Fw.reset 0 ∧ t.flash = s.flash ∧ t.fuses = s.fuses ∧ t.fenceList = s.fenceList ∧
      t.cores = numberCores s.fuses s.fenceList ∧ t.rings = [] ∧ t.jobs = List.replicate 8 Job.empty ∧ t.ash.mirror = [] ∧ t.pins.faultN = true) ∧
    (∃ t, exec (.resetN true) s = .next t ∧ ResetFrom s t 1 ∧ t.ash = { s.ash with nonce := t.ash.nonce } ∧ t.pins.resetN = false ∧ t.pins.alive = false) ∧
    exec (.resetN false) s = .next { s with pins := { s.pins with resetN := true } } ∧
    (let falls (i : Instr) (code die unit rail cause : Nat) (pins : Pins) : Prop :=
      ∃ t, exec i s = .next t ∧ ResetFrom s t cause ∧ AshTook s t 0xF die unit [(32, 1, code), (33, 1, rail), (36, 4, unit)] ∧
        t.pins = { pins with alive := false, faultN := false }
     (s.pins.resetN = true → falls .pwrOkFall 5 5 0xFFFFFFFF 0xFF 3 { s.pins with pwrOk := false }) ∧
     (∀ r < 11, falls (.brownOut r) 5 (if r < 4 then r else 5) 0xFFFFFFFF r 3 s.pins) ∧
     (∀ r < 11, falls (.overvoltage r) 6 (if r < 4 then r else 5) 0xFFFFFFFF r 4 s.pins) ∧
     falls .refClkLoss 8 5 0xFFFFFFFF 0xFF 4 { s.pins with refClk := false } ∧
     ∀ code die unit, 1 ≤ code → code ≤ 8 → die < 256 → unit < 2 ^ 32 → falls (.deviceFatal code die unit) code die unit 0xFF 4 s.pins) ∧
    (let fires (i : Instr) (dog : Option Nat) (cause : Nat) : Prop :=
      ∀ w, dog = some w → ∃ t, exec i s = .next t ∧ ResetFrom { s with now := max s.now w } t cause ∧ AshTook s t 0xB 5 0 [(32, 1, 7)]
     fires .startWatchdog s.fw.startDog 5 ∧ fires .confirmWatchdog s.fw.confirmDog 6)

/-- R474, R475: a sample of the package power, and the run of the power loop every 100 µs.
What it says beyond the rules is the model's choice: log entry 16. -/
def Obligations.PowerSamplesAndLoop : Prop :=
  ∀ s : State,
    let p := s.power
    let mean (l : List Nat) : Nat := l.sum / l.length
    (∀ w, let l := (w :: p.samples).take 100
      exec (.powerSample w) s = .next { s with
        power := if mean l ≤ p.limit then { p with samples := l, unmet := false, runsOver := 0 } else { p with samples := l } }) ∧
    (p.limit < mean p.samples → p.level < 15 →
      ∃ t, exec .powerLoop s = .next t ∧ ClocksTo { s with power := { p with level := p.level + 1, runsOver := 0 } } t) ∧
    (p.limit < mean p.samples → 15 ≤ p.level → p.runsOver < 99 → exec .powerLoop s = .next { s with power := { p with runsOver := p.runsOver + 1 } }) ∧
    (p.limit < mean p.samples → 15 ≤ p.level → p.runsOver = 99 → p.unmet = false →
      ∃ t, exec .powerLoop s = .next t ∧ Logged s { s with power := { p with runsOver := 100, unmet := true } } t 0xA 5 0xFF [(32, 1, 3)]) ∧
    (mean p.samples ≤ p.limit → 97 * p.limit ≤ 100 * mean p.samples →
      exec .powerLoop s = .next { s with power := { p with unmet := false, runsOver := 0 } }) ∧
    (100 * mean p.samples < 97 * p.limit →
      ∃ t, exec .powerLoop s = .next t ∧ ClocksTo { s with power := { p with unmet := false, runsOver := 0, level := p.level - 1 } } t)

/-- R399, R478, R479, R481: the sensors and thermal levels of a die; a dip of a monitored rail, its return, and the fall of the dip level.
What it says beyond the rules is the model's choice: log entry 42. -/
def Obligations.SensorsDipsAndLevels : Prop :=
  ∀ s : State, s.power.temps.length = 72 →
    let p := s.power
    let hot (d : Nat) (x : Int) : Prop := ∃ k t, p.temps[k]? = some t ∧ x ≤ t ∧ ((16 * d ≤ k ∧ k < 16 * d + 16) ∨ 64 ≤ k)
    let acts (r d : Nat) : Prop := d < 4 ∧ (r = d ∨ 4 ≤ r)
    (∀ l, l.length = 72 → (∀ t ∈ l, t < 760) → exec (.sensorSample l) s = .next { s with power := { p with temps := l } }) ∧
    (∀ l k, l.length = 72 → (∃ t, l[k]? = some t ∧ 760 ≤ t) → (∀ i t, i < k → l[i]? = some t → t < 760) →
      ∃ t, exec (.sensorSample l) s = .next t ∧ ResetFrom s t 4 ∧
        AshTook s t 0xF (if k < 64 then k / 16 else if k < 68 then 4 else 5) k [(32, 1, 7), (33, 1, 0xFF), (36, 4, k)] ∧ t.pins.faultN = false) ∧
    (∀ d < 4, hot d 720 → 0 < p.thermal.getD d 0 →
      ∃ t, exec (.thermalStep d true) s = .next t ∧ ClocksTo { s with power := { p with thermal := p.thermal.set d (min 15 (p.thermal.getD d 0 + 1)) } } t) ∧
    (∀ d < 4, hot d 720 → p.thermal.getD d 0 = 0 →
      ∃ u t v, exec (.thermalStep d true) s = .next t ∧ ClocksTo { s with power := { p with thermal := p.thermal.set d 1 } } u ∧
        Logged s u t 0xA d v [(32, 1, 2), (33, 2, 0)]) ∧
    (∀ d < 4, ¬ hot d 705 →
      ∃ t, exec (.thermalStep d false) s = .next t ∧ ClocksTo { s with power := { p with thermal := p.thermal.set d (p.thermal.getD d 0 - 1) } } t) ∧
    (∀ (r mv nominal : Nat), [750, 750, 750, 750, 850, 800, 800, 900, 1050, 750, 1100][r]? = some nominal → 90 * nominal < 100 * mv → 100 * mv < 95 * nominal →
      p.warn.testBit r = false → p.dip.length = 4 →
      ∃ u t dip, exec (.supplyDip r mv) s = .next t ∧
        (∀ d < 4, (acts r d → dip.getD d 0 = 8) ∧ (¬ acts r d → dip.getD d 0 = p.dip.getD d 0)) ∧ dip.length = 4 ∧
        ClocksTo { s with power := { p with warn := p.warn ||| 2 ^ r, dipped := p.dipped ||| 2 ^ r, dipCount := (p.dipCount + 1) % 2 ^ 64
                                            lowest := p.lowest.set r mv, dip } } u ∧
        Logged s u t 0xA (if r < 4 then r else 5) r [(32, 1, 1), (33, 2, mv)]) ∧
    (∀ r, p.warn.testBit r = true →
      exec (.railReturnAboveWarning r) s = .next { s with power := { p with warn := p.warn - 2 ^ r } }) ∧
    (∀ d < 4, (∀ r < 11, acts r d → p.warn.testBit r = false) → p.dip.length = 4 →
      ∃ t, exec (.dipDecay d) s = .next t ∧ ClocksTo { s with power := { p with dip := p.dip.set d (p.dip.getD d 0 - 1) } } t)

/-- R483, R304, R331, R377: the other reference inputs, the return of REF_CLK, and ALIVE, which changes its level with the health marks only.
What it says beyond the rules is the model's choice: log entries 38, 46. -/
def Obligations.ReferencesAndAlive : Prop :=
  ∀ s : State,
    exec .refClkReturn s = .next { s with pins := { s.pins with refClk := true } } ∧
    (s.fw.stage = 4 → exec .aliveToggle s = .next { s with pins := { s.pins with alive := !s.pins.alive } }) ∧
    (s.fw.stage ≠ 4 → exec .aliveToggle s = .next s) ∧
    (s.fab.source ≠ 1 → exec .trefLoss s = .next { s with pins := { s.pins with tref := false } }) ∧
    (∀ east, (∀ (n : Nat) (l : Link), s.links[n]? = some l → (if east then 18 ≤ n else n < 18) → l.state ≠ 4) →
      exec (.lrefLoss east) s = .next { s with pins := if east then { s.pins with lrefE := false } else { s.pins with lrefW := false } }) ∧
    (s.Calm → (∀ j < 8, (s.job j).snap.state ≠ 2) →
      exec .pcieRefclkLoss s = .next { s with pins := { s.pins with pcieRef := false }, pcie := ⟨false, 0⟩ })

/-- R456, R460, R463-R467: every boot ends with the firmware started or with Kindling in recovery; the cores are held meanwhile. KINDLING_START begins one as the
device leaves reset; RECOVERY_TIMEOUT, BOOT and a FINISH that passes go on with one.
What it says beyond the rules is the model's choice: log entries 41, 43. -/
def Obligations.BootsEndInFirmwareOrRecovery : Prop :=
  ∀ (s : State) (b : BootEnv),
    let boots (i : Instr) (sent : List Sent) : Prop :=
      ∃ t, exec i s = .next t ∧ t.cores = s.cores ∧ t.fuses = s.fuses ∧ t.jobs.length = s.jobs.length ∧ t.sent = sent ∧ t.now = s.now ∧
        ((t.fw.stage = 3 ∧ t.recovery.mode = 0 ∧ t.fw.startDog = some (s.now + 30000000000) ∧
          t.fw.confirmDog = (if t.fw.trial then some (s.now + 600000000000) else none) ∧ t.pins.faultN = true ∧ (t.ring? 63).isSome = true) ∨
         (t.fw.stage = 2 ∧ (t.recovery.mode = 1 ∨ t.recovery.mode = 2) ∧ (t.pins.faultN = false ↔ t.recovery.mode = 2)))
    let ack (seq st code : Nat) : List Byte :=
      leBytes 2 0x4B52 ++ [1, 6] ++ leBytes 4 seq ++ leBytes 4 0 ++ leBytes 2 0 ++ leBytes 1 st ++ leBytes 1 code
    (s.fw.stage = 0 → s.pins.resetN = true → s.pins.refClk = true → boots (.kindlingStart b) s.sent) ∧
    (s.recovery.mode = 1 → s.recovery.client = none → boots (.recoveryTimeout b) s.sent) ∧
    ∀ ip port seq, (s.recovery.mode = 1 ∨ s.recovery.mode = 2) → (s.recovery.client = none ∨ s.recovery.client = some (ip, port)) →
      (∀ a ∈ s.recovery.acks, ¬ (a.1 = ip ∧ a.2.1 = port ∧ a.2.2.1 = seq)) →
      boots (.boot ip port seq b) (.datagram ip port (ack seq 0 0) :: s.sent) ∧
      (let h := s.imageHeader flashStaging
       s.fw.session = true → ceilDiv (fieldAt h 16 4) 256 ≤ s.fw.pages.length →
       if Config.sha384 (s.flashRead (flashStaging + 0x1000) (fieldAt h 16 4)) = bytesAt h 24 48 then
         boots (.finish ip port seq b) (.datagram ip port (ack seq 0 0) :: s.sent)
       else ∃ t, exec (.finish ip port seq b) s = .next t ∧ t.fw = { s.fw with session := false, check := 9, staging := 3 } ∧
         t.sent = .datagram ip port (ack seq 9 9) :: s.sent ∧ t.flash = s.flash ∧ t.recovery.mode = s.recovery.mode)

/-- R456, R464, R467, R454: what stops a boot: a flash that cannot be used, RECOVERY_N, the start watchdog, an ACTIVE image that fails a check.
What it says beyond the rules is the model's choice: log entry 41. -/
def Obligations.BootChecks : Prop :=
  ∀ (s : State) (b : BootEnv), s.fw.stage = 0 → s.pins.resetN = true → s.pins.refClk = true →
    let stops (mode cause : Nat) : Prop :=
      ∃ t, exec (.kindlingStart b) s = .next t ∧ t.fw.stage = 2 ∧ t.recovery = { Recovery.none with mode, cause, after := t.recovery.after } ∧
        t.flash = s.flash ∧ t.cores = s.cores ∧ t.pins = { s.pins with pwrOk := true, faultN := mode != 2 } ∧ t.inReset = false ∧
        ∃ r, t.ash.mirror.getLast? = some r ∧ fieldAt r.2 16 2 = 0xB ∧ fieldAt r.2 32 1 = 5
    (b.flashOk = false → stops 2 2) ∧
    (b.flashOk = true → b.strap = true → stops 2 3) ∧
    (b.flashOk = true → b.strap = false → fieldAt s.bootState 11 1 = 0 → s.readyAt flashStaging = false →
      (s.fw.cause = 5 → stops 1 1) ∧
      (s.fw.cause ≠ 5 → fieldAt s.bootState 9 1 < 3 → s.verifyImage flashActive ≠ 0 → stops 1 2))

/-- R465, R457: the recovery protocol: ANNOUNCE, the staging of a header and of a body, the settings, the release of a silent session; datagrams of another
client and repeated sequences.
What it says beyond the rules is the model's choice: log entry 41. -/
def Obligations.RecoveryProtocol : Prop :=
  ∀ (s : State) (ip port seq : Nat), (s.recovery.mode = 1 ∨ s.recovery.mode = 2) →
    let ack (st code : Nat) : List Byte :=
      leBytes 2 0x4B52 ++ [1, 6] ++ leBytes 4 seq ++ leBytes 4 0 ++ leBytes 2 0 ++ leBytes 1 st ++ leBytes 1 code
    let bound : Recovery := { s.recovery with client := some (ip, port) }
    let done (u : State) (r : Recovery) (st code : Nat) : State :=
      { u with sent := .datagram ip port (ack st code) :: s.sent, recovery := { r with acks := r.acks ++ [(ip, port, seq, ack st code)] } }
    (∃ m, exec .announce s = .next { s with
        free := s.free + 1, sent := .datagram 0xFFFFFFFF 7417 m :: s.sent
        recovery := { s.recovery with secs := if s.recovery.mode = 1 ∧ s.recovery.client = none then s.recovery.secs + 1 else s.recovery.secs } } ∧
      m.length = 43 ∧ m.take 4 = [0x52, 0x4B, 1, 1] ∧ fieldAt m 12 2 = 27 ∧ fieldAt m 16 8 = s.fuses.serial % 2 ^ 64 ∧
      fieldAt m 32 1 = s.recovery.cause % 256 ∧ fieldAt m 33 4 = s.fw.actVersion % 2 ^ 32 ∧ fieldAt m 37 4 = s.fw.prevVersion % 2 ^ 32 ∧
      fieldAt m 41 2 = (if s.recovery.mode = 1 then s.recoverySetting - s.recovery.secs else 0) % 2 ^ 16) ∧
    ((s.recovery.client = none ∨ s.recovery.client = some (ip, port)) →
      (∀ a ∈ s.recovery.acks, ¬ (a.1 = ip ∧ a.2.1 = port ∧ a.2.2.1 = seq)) →
      (∀ d : List Byte, d.length = 512 → s.headerCheck d = 0 → ∃ f, exec (.header ip port seq d) s =
        .next (done { s with flash := f, fw := { s.fw with session := true, pages := [], stgVersion := fieldAt d 12 4, staging := 1 } } bound 0 0) ∧
        f = (s.flash.clear flashStaging (65536 * ceilDiv (4096 + fieldAt d 16 4) 65536)).write flashStaging (d.map (· ^^^ 0xFF))) ∧
      (∀ d : List Byte, d.length = 512 → s.headerCheck d ≠ 0 → exec (.header ip port seq d) s =
        .next (done { s with fw := { s.fw with check := s.headerCheck d, staging := 3 } } bound 9 (s.headerCheck d))) ∧
      (∀ d : List Byte, d.length ≠ 512 → exec (.header ip port seq d) s = .next (done s bound 3 3)) ∧
      (∀ (off : Nat) (d : List Byte), s.fw.session = true → off % 256 = 0 → d ≠ [] → d.length ≤ 1024 →
        (d.length % 256 = 0 ∨ off + d.length = s.stagedLen) → off + d.length ≤ s.stagedLen →
        let pages := (List.range ((d.length + 255) / 256)).map (· + off / 256)
        (∀ p ∈ pages, p ∉ s.fw.pages) →
        exec (.body ip port seq off d) s =
          .next (done { s with flash := s.flash.write (flashStaging + 4096 + off) (d.map (· ^^^ 0xFF)), fw := { s.fw with pages := pages ++ s.fw.pages } }
            s.recovery 0 0)) ∧
      (∀ (off : Nat) (d : List Byte), s.fw.session = false → exec (.body ip port seq off d) s = .next (done s s.recovery 3 2)) ∧
      (∀ b, s.fw.session = false → exec (.finish ip port seq b) s = .next (done s s.recovery 3 2)) ∧
      (∀ d : List Byte, d.length = 256 → exec (.settings ip port seq d) s = .next (done (s.writeCopy 1 256 248 d) bound 0 0))) ∧
    (∀ c, s.recovery.client = some c →
      exec .recoverySessionTimeout s = .next { s with
        recovery := { s.recovery with client := none, acks := [] }
        fw := if s.fw.session then { s.fw with session := false, pages := [], staging := 0 } else s.fw }) ∧
    (∀ c, s.recovery.client = some c → c ≠ (ip, port) → ∀ d off b,
      ∀ i ∈ [Instr.header ip port seq d, .body ip port seq off d, .finish ip port seq b, .settings ip port seq d, .boot ip port seq b],
        exec i s = .next { s with sent := .datagram ip port (ack 3 4) :: s.sent }) ∧
    (∀ m l, (s.recovery.client = none ∨ s.recovery.client = some (ip, port)) → s.recovery.acks = (ip, port, seq, m) :: l → ∀ d off b,
      ∀ i ∈ [Instr.header ip port seq d, .body ip port seq off d, .finish ip port seq b, .settings ip port seq d, .boot ip port seq b],
        exec i s = .next { s with sent := .datagram ip port m :: s.sent })


/-- R8-R11, R13, R208, R210, R211, R219, R228: a host core's access: a register, a scratch window, memory that it can reach, memory that does not exist or is
poisoned; a register write has no effect; a store into a completion ring, but for cmp_cons, makes the ring's later replies unpredictable.
What it says beyond the rules is the model's choice: log entries 18, 44. -/
def Obligations.HostAccesses : Prop :=
  ∀ (s : State) (a n : Nat) (d : List Byte), s.memReg.hostGib ≠ 0 → 3 ≤ s.fw.stage →
    let counted (u t : State) : Prop := t = { u with dev := { s.dev with cnt := t.dev.cnt } }
    let meets (x k : Nat) : Bool := decide (a < x + k) && decide (x < a + n)
    let rings : List Ring := s.rings.map fun r =>
      if r.num < 62 && (meets r.cmpBase 8 || meets (r.cmpBase + 16) (48 + 32 * 2 ^ r.c)) then { r with spoiled := true } else r
    let touched (b : Nat) : State := { s with blks := s.blks.map fun x => if x.idx == b then { x with access := s.now / 10240 } else x }
    (∀ w v, exec (.registerWrite a w v) s = .next s) ∧
    (a < 2 ^ 32 → (∀ err, exec (.hostAccess true a n d err) s = .next s) ∧
      (∀ err, n ≠ 8 ∨ a % 8 ≠ 0 → exec (.hostAccess false a n d err) s = .next { s with sent := .value (List.replicate n 0) :: s.sent }) ∧
      (∀ err, a % 8 = 0 → (a < 0x1000000 ∨ 0x1400000 ≤ a) → (a < 0x2300000 ∨ 0x2400000 ≤ a) →
        exec (.hostAccess false a 8 d err) s = .next { s with sent := .value (leBytes 8 (s.regVal a)) :: s.sent })) ∧
    (0x100000000 ≤ a → a < 0x200000000 →
      ∀ err, exec (.hostAccess true a n d err) s = .next s ∧
        exec (.hostAccess false a n d err) s = .next { s with sent := .value (List.replicate n 0) :: s.sent }) ∧
    (0 < n → a % 64 + n ≤ 64 → s.region a = .host → s.poison.contains (a / 65536) = false →
      (∃ t, exec (.hostAccess false a n d 0) s = .next t ∧ counted { s with sent := .value (s.mem.read a n) :: s.sent } t) ∧
      (∃ t, exec (.hostAccess true a n d 0) s = .next t ∧ counted { s with mem := s.mem.write a (bytesAt d 0 n), rings } t)) ∧
    (∀ b x, 0 < n → a % 64 + n ≤ 64 → s.region a = .tiered b → s.blk? b = some x → x.state ≠ .unmapped → x.state ≠ .frozen → x.poisoned = false →
      s.moveOf b = none →
      (∃ t, exec (.hostAccess false a n d 0) s = .next t ∧ counted { touched b with sent := .value (s.mem.read a n) :: s.sent } t) ∧
      (∃ t, exec (.hostAccess true a n d 0) s = .next t ∧ counted { touched b with mem := s.mem.write a (bytesAt d 0 n), rings } t)) ∧
    (s.region a = .bad ∨ (s.region a = .host ∧ s.poison.contains (a / 65536) = true) → (a < 0x100000000 ∨ 0x200000000 ≤ a) → ∀ store err,
      exec (.hostAccess store a n d err) s = .next { s with sent := .accessFault :: s.sent })

/-- R211, R485: a request of a function below the root port reaches the host region; only a function that the firmware owns reaches the tiers and the
firmware heart window; anything else completes with Unsupported Request.
What it says beyond the rules is the model's choice: log entry 44. -/
def Obligations.PcieInboundAccesses : Prop :=
  ∀ (s : State) (own : Bool) (a n : Nat) (d : List Byte), s.pcie.up = true →
    let counted (u t : State) : Prop := t = { u with dev := { s.dev with cnt := t.dev.cnt } }
    let meets (x k : Nat) : Bool := decide (a < x + k) && decide (x < a + n)
    let rings : List Ring := s.rings.map fun r =>
      if r.num < 62 && (meets r.cmpBase 8 || meets (r.cmpBase + 16) (48 + 32 * 2 ^ r.c)) then { r with spoiled := true } else r
    let reach : Prop := s.region a = .host ∨ (own = true ∧ s.region a = .heart)
    (0 < n → a % 65536 + n ≤ 65536 → reach → s.poison.contains (a / 65536) = false →
      (∃ t, exec (.pcieInbound own false a n d 0) s = .next t ∧ counted { s with sent := .value (s.mem.read a n) :: s.sent } t) ∧
      (∃ t, exec (.pcieInbound own true a n d 0) s = .next t ∧ counted { s with mem := s.mem.write a (bytesAt d 0 n), rings } t)) ∧
    ((a < 0x100000000 ∨ 0x200000000 ≤ a) → s.region a ≠ .host → (own = false ∨ s.region a = .bad) → ∀ store err,
      exec (.pcieInbound own store a n d err) s = .next { s with sent := .accessFault :: s.sent }) ∧
    (0x100000000 ≤ a → a < 0x200000000 → ∀ err, exec (.pcieInbound own true a n d err) s = .next s)

/-- R487: the I3C sideband: the dynamic address, a private write of a register address, and the private read of that register.
What it says beyond the rules is the model's choice: log entry 44. -/
def Obligations.SidebandAccesses : Prop :=
  ∀ (s : State) (dyn : Nat) (d : List Byte),
    (s.i3c.dyn = none → exec (.setdasa 0x4B dyn) s = .next { s with i3c := { s.i3c with dyn := some dyn } } ∧
      exec (.entdaa dyn) s = .next { s with i3c := { s.i3c with dyn := some dyn } }) ∧
    (∀ a, a ≠ 0x4B → exec (.setdasa a dyn) s = .next s) ∧
    (d.length = 8 → exec (.i3cPrivateWrite d) s = .next { s with i3c := { s.i3c with pointer := leNat d } }) ∧
    (8 < d.length → exec (.i3cPrivateWrite d) s = .next s) ∧
    (let a := s.i3c.pointer
     let v : Nat :=
       if (0x1000 ≤ a ∧ a < 0x2000) ∨ (0x2400000 ≤ a ∧ a < 0x2600000) ∨ a = 0x2000000 ∨ a = 0x2000008 then (if s.inReset then 0 else s.regVal a)
       else if 0x2303100 ≤ a ∧ a ≤ 0x2303110 then s.regVal a
       else 0
     exec .i3cPrivateRead s = .next { s with i3c := { s.i3c with out := leBytes 8 v }, sent := .value (leBytes 8 v) :: s.sent })

/-- R373, R374, R486: the management port: ARP, ICMP echo, a datagram that brings a command to ring 63, one whose sequence was answered before; and a packet
from a peer's firmware, which goes to ring 62.
What it says beyond the rules is the model's choice: log entries 44, 45. -/
def Obligations.ManagementPortAndPeers : Prop :=
  ∀ (s : State) (ip port : Nat) (d : List Byte),
    (2 ≤ s.fw.stage →
      exec (.arpRequest s.mgmtAddress) s = .next { s with sent := .arp s.mgmtAddress :: s.sent } ∧
      (∀ a, a ≠ s.mgmtAddress → exec (.arpRequest a) s = .next s ∧ exec (.icmpEcho a d) s = .next s) ∧
      (s.recovery.mode = 0 → exec (.icmpEcho s.mgmtAddress d) s = .next { s with sent := .icmp s.mgmtAddress d :: s.sent })) ∧
    (3 ≤ s.fw.stage → 72 ≤ d.length → fieldAt d 0 4 = 0x00015354 → fieldAt d 10 1 = 1 →
      let seq := fieldAt d 4 4
      let mine (m : Nat × Nat × Nat × List Byte) : Prop := m.1 = ip ∧ m.2.1 = port
      ((∀ m ∈ s.mgmtSeen, ¬ mine m) → (∀ w ∈ s.waitq, w.h.ring ≠ 63) → (∀ o ∈ s.outs, o.h.ring ≠ 63) →
        ∃ w : Waiting, exec (.mgmtDatagram ip port d) s = .next { s with waitq := s.waitq ++ [w] } ∧ w.h.ring = 63 ∧ w.h.tag = fieldAt d 12 4 ∧
          w.h.job = fieldAt d 16 1 % 8 ∧ w.from_ = (ip, port, seq) ∧ w.units = 1 ∧ w.h.fence = (fieldAt d 11 1).testBit 1 ∧
          ((fieldAt d 11 1).testBit 0 = false → w.h.rt = none)) ∧
      (∀ bs, s.mgmtSeen = [(ip, port, seq, bs)] → exec (.mgmtDatagram ip port d) s = .next { s with sent := .datagram ip port bs :: s.sent })) ∧
    (∀ x y z tag : Nat, 3 ≤ s.fw.stage →
      ∃ w : Waiting, exec (.controlMsg x y z tag d) s = .next { s with waitq := s.waitq ++ [w] } ∧ w.h.ring = 62 ∧ w.h.tag = fieldAt d 4 4 ∧
        w.from_ = (x, y, z) ∧ ∀ j, s.jobOfTag tag = some j → w.h.job = j)


/-- R221, R227, R266, R273, R276, R279: a request of a core's fetch/store engine is served at its source and at its destination, fails, and is acknowledged.
What it says beyond the rules is the model's choice: log entries 31, 48, 55. -/
def Obligations.RequestsOfTheFetchStoreEngine : Prop :=
  ∀ (s : State) (n k : Nat) (c : Core) (r : Req) (i : Item), s.core? n = some c → s.Calm → Served c → (c.cpu.st = .running ∨ c.cpu.st = .stopped) →
    State.req? c k = some r → State.itemOfReq c r = some i →
    let put (f : Req → Req) : Core := { c with dma := { c.dma with reqs := c.dma.reqs.map fun q => if q.slot == k then f q else q } }
    let host (a : Nat) : Prop := s.region a = .host ∧ s.poison.contains (a / 65536) = false
    let meets (a x k : Nat) : Bool := decide (a < x + k) && decide (x < a + r.data.length)
    let rings (a : Nat) : List Ring := s.rings.map fun x =>
      if x.num < 62 && (meets a x.cmpBase 8 || meets a (x.cmpBase + 16) (48 + 32 * 2 ^ x.c)) then { x with spoiled := true } else x
    let wrote (a : Nat) : State := { s with mem := s.mem.write a (keepBits (r.piece.keeps i) (s.mem.read a r.data.length) r.data), rings := rings a }
    (∀ o a b, r.phase = .read → r.piece.src = some o → State.srcDest i o = .mem a → host a → s.dstDest i r.piece.dst = .mem b →
      ∃ t, exec (.sliceRequest n k 0) s = .next t ∧ CoreAndCounts n (put fun q => { q with data := r.piece.masked i (s.mem.read a r.piece.len), phase := .write }) s t) ∧
    (∀ o j cell off m d b err, r.phase = .read → r.piece.src = some o → State.srcDest i o = .cell cell off → c.job = some j →
      s.cellTarget j (State.cellNumber c cell) = .core m → s.core? m = some d → State.backedOff d.lead off r.piece.len = true → s.dstDest i r.piece.dst = .mem b →
      ∃ t, exec (.sliceRequest n k err) s = .next t ∧
        CoreAndCounts n (put fun q => { q with data := r.piece.masked i (State.windowRead s.free d.cpu off r.piece.len), phase := .write })
          { s with free := s.free + if d.cpu.tstWas.isEmpty then 0 else 1 } t) ∧
    (∀ a, r.phase = .write → s.dstDest i r.piece.dst = .mem a → host a →
      ∃ t, exec (.sliceRequest n k 0) s = .next t ∧ CoreAndCounts n (put fun q => { q with phase := .ack }) (wrote a) t) ∧
    (∀ a b x j, r.phase = .write → s.dstDest i r.piece.dst = .mem a → s.region a = .tiered b → s.blk? b = some x → x.state ≠ .unmapped → x.state ≠ .frozen →
      x.poisoned = false → s.moveOf b = none → c.job = some j → (s.job j).wins = [] →
      ∃ t, exec (.sliceRequest n k 0) s = .next t ∧ CoreAndCounts n (put fun q => { q with phase := .ack })
        { wrote a with blks := s.blks.map fun y => if y.idx == b then { y with access := s.now / 10240 } else y } t) ∧
    (∀ o a, r.phase = .read → r.piece.src = some o → State.srcDest i o = .mem a → s.region a = .bad → (∀ q ∈ c.dma.reqs, q.phase ≠ .held) →
      ∃ t, exec (.requestFailed n k) s = .next t ∧
        CoreAndCounts n { c with dma := { c.dma with
          reqs := c.dma.reqs.filter fun q => q.slot != k
          q := c.dma.q.map fun x => if x.uid == r.item then { x with failAt := some (match x.failAt with
            | some y => min y r.piece.off
            | none => r.piece.off) } else x } } s t) ∧
    (r.phase = .ack → ∃ t, exec (.writeAck n k) s = .next t ∧
      CoreAndCounts n { c with dma := { c.dma with reqs := c.dma.reqs.filter fun q => q.slot != k } } s t)

/-- R274-R279, R284, R291: a descriptor starts, or ends at its start when it is invalid or its deadline has passed; its deadline arrives; it completes, counting on
its semaphore when it succeeded and recorded in DMA_FAIL_LAST when it failed.
What it says beyond the rules is the model's choice: log entry 57. -/
def Obligations.ItemsStartAndComplete : Prop :=
  ∀ (s : State) (n j : Nat) (c : Core) (i : Item), s.core? n = some c → s.Calm → c.job = some j → c.cpu.st = .running → c.withheld = false →
    (c.dma.q.find? (fun x => x.uid == i.uid) = some i) →
    (c.dma.q.find? (fun x => x.phase != .running) = some i → (i.phase = .woken ∨ i.startEn = false) →
      ((∀ d ∈ i.deadline, s.now / 10240 < d) → i.invalid = false → i.dstModeRaw ≠ 2 →
        ∃ t d x, exec (.descriptorStart n) s = .next t ∧ t.core? n = some d ∧ x ∈ d.dma.q ∧ x.uid = i.uid ∧ x.raw = i.raw ∧ x.phase = .running ∧
          x.total = i.n1 * i.len0 * i.n2 * i.n3) ∧
      (∀ st, ((∃ d ∈ i.deadline, d ≤ s.now / 10240) ∧ st = 6) ∨ ((∀ d ∈ i.deadline, s.now / 10240 < d) ∧ i.invalid = true ∧ st = 3) →
        ∃ t d, exec (.descriptorStart n) s = .next t ∧ t.core? n = some d ∧ (∀ x ∈ d.dma.q, x.uid ≠ i.uid) ∧
          d.dma.failLast.valid = true ∧ d.dma.failLast.status = st ∧ d.dma.failLast.itemId = i.itemId)) ∧
    (∀ d0, i.deadline = some d0 → i.phase = .running → i.dstModeRaw ≠ 2 →
      ∃ t d x, exec (.itemDeadline n i.uid) s = .next t ∧ t.now = max s.now (d0 * 10240) ∧ t.core? n = some d ∧ x ∈ d.dma.q ∧ x.uid = i.uid ∧
        x.timedOut = true ∧ x.todo = []) ∧
    (Served c → (∀ r ∈ c.dma.reqs, r.item ≠ i.uid) → i.rptEn = false →
      (∀ m ∈ s.cores, (∀ x ∈ m.dma.tracked, x.issuer ≠ some n ∨ x.item ≠ i.uid) ∧ ∀ x ∈ m.dma.bufs ++ m.dma.waiting, x.issuer ≠ some n ∨ x.item ≠ i.uid) →
      let kept : Dma := { c.dma with q := c.dma.q.filter fun x => x.uid != i.uid }
      (i.failAt = none → i.timedOut = false → i.ownerLost = false → i.members = [] →
        ∃ t d, exec (.itemComplete n i.uid) s = .next t ∧ OnlyCore n s t ∧ t.core? n = some d ∧ d.dma = kept ∧
          d.cpu = { c.cpu with sups := match i.dstSem with
            | some m => if State.ownCount i && decide (m < 48) then
                c.cpu.sups ++ [⟨c.cpu.cycle + (if c.cpu.banked then Cpu.engDistTo c.cpu engFsd m else 4), m, false, 1,
                  c.cpu.cycle + (if c.cpu.banked then Cpu.engDistTo c.cpu engFsd m else 4)⟩] else c.cpu.sups
            | none => c.cpu.sups }) ∧
      (i.failAt ≠ none → i.ownerLost = false → (∀ q, s.ring? (s.job j).ring = some q → s.Plain q.cmpBase (64 + 32 * 2 ^ q.c)) →
        ∃ t d u, exec (.itemComplete n i.uid) s = .next t ∧ t.core? n = some d ∧ d.dma = { kept with failLast := ⟨i.itemId, 3, true, u⟩ } ∧ d.cpu = c.cpu))

/-- R53, R203, R280, R285: the arrival path grants a credit; the oldest request in a landing buffer lands and, with the last byte of its item, counts on the
item's semaphore; a WRITE of another device lands in memory and is acknowledged, or comes to a cell's arrival path, which acknowledges it as it lands.
What it says beyond the rules is the model's choice: log entries 31, 48, 55. -/
def Obligations.ArrivalsLand : Prop :=
  ∀ (s : State) (n : Nat) (c : Core) (r : ArrReq) (rest : List ArrReq), s.core? n = some c → s.Calm →
    let same (k : Track) : Bool := k.issuer == r.issuer && k.item == r.item && k.member == r.member
    let path (d : Dma) : State → State → Prop := CoreAndCounts n { c with dma := d }
    (c.dma.waiting = r :: rest → c.dma.closed = false → c.dma.bufs.length < 64 → c.dma.tracked.length < 128 →
      (∀ m, r.issuer = some m → r.copy = false ∧ ∀ e, s.core? m = some e → Served e) →
      ∃ t, exec (.creditGrant n) s = .next t ∧
        path { c.dma with bufs := c.dma.bufs ++ [r], waiting := rest
                          tracked := if c.dma.tracked.any same then c.dma.tracked else c.dma.tracked ++ [⟨r.issuer, r.item, r.member, 0⟩] } s t) ∧
    (c.dma.bufs = r :: rest → r.issuer = none →
      let got := ((c.dma.tracked.find? same).map (·.got)).getD 0 + r.data.length
      let bytes := keepBits r.part (State.windowRead s.free c.cpu r.woff r.data.length) r.data
      let landed : Cpu := State.windowWrite s.free r.woff bytes c.cpu
      landed.scratch = (if r.woff < 0x200000 then c.cpu.scratch.writeWrap scratchBytes r.woff bytes else c.cpu.scratch) ∧
      landed.leadMem = (if r.woff < 0x200000 then c.cpu.leadMem else c.cpu.leadMem.writeWrap leadBytes (r.woff - 0x200000) bytes) ∧
      ∃ t e, exec (.arrivalLand n) s = .next t ∧ t.core? n = some e ∧ t.mem = s.mem ∧ (∀ m, m ≠ n → t.core? m = s.core? m) ∧
        (match r.ackTo with
         | none => t.packets = s.packets
         | some a => ∃ p, t.packets = (a.dev, 3, p) :: s.packets ∧ packetKind p = 1) ∧
        CountsOnly { c with
          cpu := match r.sem with
            | some m => if decide (r.total ≤ got) && decide (m < 48) then
                let land := c.cpu.cycle + (if c.cpu.banked then Cpu.engDistTo c.cpu engArrival m else 4)
                { landed with sups := c.cpu.sups ++ [⟨land, m, false, 1, land⟩] }
                else landed
            | none => landed
          dma := { c.dma with
            bufs := rest
            tracked := if r.total ≤ got then c.dma.tracked.filter (fun k => !same k)
              else c.dma.tracked.map fun k => if same k then { k with got } else k } } e) ∧
    (∀ (x y z word tag item len sem : Nat) (d : List Byte),
      let acked (t : State) : Prop := ∃ p, t.packets = ((x, y, z), 3, p) :: s.packets ∧ packetKind p = 1
      (word < 2 ^ 52 → s.region word = .host → s.poison.contains (word / 65536) = false → d ≠ [] → word % 65536 + d.length ≤ 65536 →
        ∃ t, exec (.write x y z word tag d item len sem) s = .next t ∧ t.mem = s.mem.write word d ∧ t.cores = s.cores ∧ acked t) ∧
      (∀ j cell off, word = 2 ^ 63 + cell * 2 ^ 32 + off → cell < 4096 → off < 2 ^ 22 → s.jobOfTag tag = some j → s.cellTarget j cell = .core n →
        State.backedOff c.lead off d.length = true → c.dma.closed = false → c.dma.bufs.length < 64 → c.dma.tracked.length < 128 →
        (∀ w ∈ c.dma.waiting, w.item ≠ State.remoteKey (x, y, z) item) →
        ∃ t e q, exec (.write x y z word tag d item len sem) s = .next t ∧ t.core? n = some e ∧ e.dma.bufs = c.dma.bufs ++ [q] ∧ q.data = d ∧ q.woff = off ∧
          q.item = State.remoteKey (x, y, z) item ∧ q.total = len ∧ q.sem = (if sem < 48 then some sem else none) ∧
          q.ackTo = some ⟨(x, y, z), word, tag⟩ ∧ t.mem = s.mem ∧ t.packets = s.packets))

/-- R239, R240, R242, R244, R250, R259: a mover starts the oldest waiting move of the highest class; a move commits in its new tier, or fails at its source; a
copy-on-write separates the block from its image; a touch of the run-ahead unit asks for a rise.
What it says beyond the rules is the model's choice: log entries 18, 22. -/
def Obligations.MovesOfThePlacementEngine : Prop :=
  ∀ s : State,
    (∀ (m : Nat) (before after : List Intent) (i : Intent), m < 4 → s.moverFailed.getD m true = false → (s.moves.filter fun x => x.mover == m).length < 64 →
      s.intents = before ++ i :: after → (∀ x ∈ before, x.cls < i.cls) → (∀ x ∈ after, x.cls ≤ i.cls) → i.cls < 4 → s.startable i = true →
      ∃ t mv, exec (.moveStart m) s = .next t ∧ mv.block = i.block ∧ mv.mover = m ∧ mv.cls = i.cls ∧ mv.tier = (if i.rise then 0 else 1) ∧
        mv.cow = ((s.blk? i.block).any fun k => k.state == .frozen) ∧ i ∈ mv.for_ ∧ mv.for_ = s.intents.filter (fun x => x.block == i.block && x.rise == i.rise) ∧
        t = { s with
          moves := s.moves ++ [mv], intents := s.intents.filter fun x => !(x.block == i.block && x.rise == i.rise), free := s.free + 1
          blks := if mv.cow then s.blks else s.blks.map fun k => if k.idx == i.block then { k with state := if i.rise then .rising else .sinking } else k }) ∧
    (∀ (b : Nat) (m : Move) (k : Blk), s.Calm → s.moveOf b = some m → s.blk? b = some k → (∀ x ∈ s.intents, x.block ≠ b) →
      (∀ x ∈ m.for_, x.origin ≠ .reserve ∧ ∀ u, x.origin ≠ .command u) →
      let done (f : Blk → Blk) (t : State) : Prop := t = { s with
        moves := s.moves.filter fun x => x.block != b, blks := s.blks.map fun x => if x.idx == b then f x else x, dev := { s.dev with cnt := t.dev.cnt }
        oldFrames := if m.cow = true ∨ s.servedAt b = [] then s.oldFrames else (s.oldFrames.filter fun f => f.2.any s.unacked) ++ [(1 - m.tier, s.servedAt b)] }
      let placed (x : Blk) : Blk := { x with state := if m.tier = 0 then .heart else .base, tier := m.tier, stack := m.stack }
      (m.cow = false → ∃ t, exec (.moveCommit b false) s = .next t ∧ done placed t) ∧
      (m.cow = true → ∀ i ∈ [Instr.moveCommit b false, .cowCommit b], ∃ t, exec i s = .next t ∧
        done (fun x => { placed x with
          image := x.image.map fun i => { i with tier := x.tier, stack := x.stack, data := some (s.mem.slice (0x100000000000 + 65536 * b) 65536) } }) t) ∧
      (m.for_ = [] → b < 2 ^ 27 → k.poisoned = false → ∃ t x, exec (.moveCommit b true) s = .next t ∧ t.moveOf b = none ∧ t.blk? b = some x ∧ x.poisoned = true ∧
        x.tier = k.tier ∧ t.memReg.poisonCount = min (s.memReg.poisonCount + 1) (2 ^ 32 - 1) ∧
        t.reserve = s.reserve + (s.moves.find? fun x => x.block == b).elim 0 fun x => if x.reserve then 1 else 0)) ∧
    (∀ (n b j : Nat) (c : Core) (i : Item) (o : Obj) (k : Blk), s.core? n = some c → c.job = some j →
      ((c.dma.q.filter fun x => x.phase != .running).take (min 64 c.cpu.rafDepth)) = [i] → (State.sourceBlocks i).contains b = true → (i.uid, b) ∉ c.touches →
      let sent (d : Core) : Prop := ∃ l, CountsOnly { c with touches := l ++ [(i.uid, b)], pfDropped := d.pfDropped } d ∧ ∀ x ∈ l, x ∈ c.touches
      (s.objOf b = some o → o.owner = j → s.blk? b = some k → k.state = .base → k.tier = 1 → k.poisoned = false → s.windowHeld b = false →
        (∀ x ∈ s.intents, x.block ≠ b) → s.moves = [] → 0 < s.freeFrames 0 →
        ∃ t d, exec (.runAheadTouch n b) s = .next t ∧ t.core? n = some d ∧ sent d ∧ d.pfDropped = c.pfDropped ∧
          t = { s with cores := t.cores, intents := s.intents ++ [⟨b, true, 0, .touch⟩] }) ∧
      (s.objOf b = none → ∃ t d, exec (.runAheadTouch n b) s = .next t ∧ t.core? n = some d ∧ sent d ∧ d.pfDropped = (c.pfDropped + 1) % 2 ^ 64 ∧
        t = { s with cores := t.cores, dev := { s.dev with cnt := t.dev.cnt } }))

/-- R226, R228, R230, R392: a patrol's corrected error counts, an uncorrectable one poisons the block and is recorded; a stack that fails poisons every block on it.
What it says beyond the rules is the model's choice: log entries 17, 22. -/
def Obligations.MemoryErrorsFound : Prop :=
  ∀ s : State, s.Calm →
    (∀ heart slice a, exec (.patrolScrub heart slice a 0) s = .next s) ∧
    (∀ heart slice a, s.sliceOf a = (if heart then 0 else 1, slice) → (s.region a = .host ∨ s.region a = .heart) →
      exec (.patrolScrub heart slice a 1) s = .next { s with memReg :=
        if heart then { s.memReg with heartEcc := (s.memReg.heartEcc + 1) % 2 ^ 64
                                      hbms := modAt s.memReg.hbms (slice / 16) fun h => { h with corrected := min (h.corrected + 1) (2 ^ 32 - 1) } }
        else { s.memReg with baseEcc := (s.memReg.baseEcc + 1) % 2 ^ 64
                             chans := modAt s.memReg.chans slice fun h => { h with corrected := min (h.corrected + 1) (2 ^ 32 - 1) } } }) ∧
    (∀ slice a, slice < 16 → s.sliceOf a = (1, slice) → s.region a = .host → s.poison.contains (a / 65536) = false →
      ∃ t, exec (.patrolScrub false slice a 2) s = .next t ∧ t.poison = s.poison ++ [a / 65536] ∧
        t.memReg = { s.memReg with poisonCount := min (s.memReg.poisonCount + 1) (2 ^ 32 - 1), poisonLast := t.memReg.poisonLast } ∧
        t.memReg.poisonLast.testBit 47 = true ∧ t.memReg.poisonLast / 2 ^ 36 % 4 = 2 ∧
        Logged s { s with poison := t.poison, memReg := t.memReg } t 1 (if slice < 8 then 4 else 5) slice [(40, 1, 2)]) ∧
    (∀ k h, s.memReg.hbms[k]? = some h → h.inUse = true → s.moves = [] → s.intents = [] →
      ∃ t, exec (.heartStackFailure k) s = .next t ∧ (t.memReg.hbms[k]?).map (·.broken) = some true ∧
        ∀ x ∈ s.blks, x.idx < 2 ^ 27 → x.state ≠ .unmapped → x.tier = 0 → x.stack = k → ∃ y, t.blk? x.idx = some y ∧ y.poisoned = true)

/-- R253-R256: the cursor of a window moves to its next region at that region's planned start, releasing the one it leaves; past the last region the run ends; a
periodic window starts its next run; a region that is late beyond its grace is recorded once.
What it says beyond the rules is the model's choice: log entries 25, 26. -/
def Obligations.StreamWindowsAdvance : Prop :=
  ∀ (s : State) (j n : Nat) (w : Win), j < s.jobs.length → s.win? j n = some w → w.active = true → ((s.job j).state = 3 ∨ (s.job j).state = 4 ∨ (s.job j).state = 6) →
    (w.predicted = false → w.reverse = false → w.cursor + 1 < w.list.length →
      ∃ t v, exec (.windowCursorAdvance j n true) s = .next t ∧ t.win? j n = some v ∧ v.cursor = w.cursor + 1 ∧ v.reverse = false ∧ v.active = true ∧
        t.now = max s.now (w.planned false (w.cursor + 1)).toNat ∧ (v.list[w.cursor]?).map (·.held) = some false) ∧
    (w.predicted = false → w.turnaround = false → w.reverse = false → w.cursor + 1 = w.list.length →
      ∃ t v, exec (.windowCursorAdvance j n true) s = .next t ∧ t.win? j n = some v ∧ (v.active = true ↔ 0 < w.periodNs) ∧ v.cursor = w.list.length ∧
        (∀ r ∈ v.list, r.held = false) ∧ t.mem = s.mem ∧ t.moves = s.moves) ∧
    (0 < w.periodNs →
      ∃ t v, exec (.windowRestart j n) s = .next t ∧ t.win? j n = some v ∧ v.runs = w.runs + 1 ∧ v.cursor = 0 ∧ v.reverse = false ∧ v.active = true ∧
        t.now = max s.now (w.start + (((w.runs + 1) * w.periodNs : Nat) : Int)).toNat ∧ v.list.length = w.list.length) ∧
    (∀ r x, w.list[r]? = some x → x.chosen = true → x.ashed = false → (w.planned w.reverse r + (w.lateNs : Int)).toNat ≤ s.now → j < 8 → n < 32 →
      (∃ b k, s.regionCovers j n x b = true ∧ s.blk? b = some k ∧ k.state ≠ .unmapped ∧ k.tier = 1) →
      ∃ t v, exec (.windowLateRecord j n r) s = .next t ∧ t.win? j n = some v ∧ (v.list[r]?).map (·.ashed) = some true ∧
        Logged s { s with jobs := t.jobs } t 5 5 (n + 256 * j) [(32, 1, j), (33, 1, n)])

/-- R303-R305, R307: how a link comes into service and leaves it: signal, training, the exchange of identities, retraining and its bound, a fourth retrain in 60 s,
the stop of a link that LINK_DISABLE has taken out of service.
What it says beyond the rules is the model's choice: log entry 39. -/
def Obligations.LinkStates : Prop :=
  ∀ (s : State) (n : Nat) (l : Link), s.links[n]? = some l →
    let put (k : Link) : State := { s with links := s.links.set n k }
    (l.state = 1 → exec (.detectSignal n) s = .next (put { l with state := 2, failCode := 0 }) ∧
      exec (.detectTimeout n) s = .next (put { l with state := 1, failCode := 1 })) ∧
    (l.state = 2 → exec (.trainDone n) s = .next (put { l with state := 3, failCode := 0 }) ∧
      exec (.trainTimeout n) s = .next (put { l with state := 1, failCode := 2 })) ∧
    (l.state = 5 →
      (l.txq = [] → ∃ t, exec (.retrainDone n) s = .next t ∧ t = { put { l with state := 4, failCode := 0 } with dev := { s.dev with cnt := t.dev.cnt } }) ∧
      (l.held = [] → s.time.parent ≠ n →
        ∃ k, exec (.retrainTimeout n) s = .next (put k) ∧ k.state = 2 ∧ k.unacked = [] ∧ k.txq = [] ∧ k.txSeq = 0 ∧ k.rxSeq = 0 ∧ k.group = l.group)) ∧
    (l.state = 3 → l.group < 6 → ∀ px py pz plink pgroup serial,
      let axis := l.group / 2
      let moved (x dim : Nat) : Nat := if l.group % 2 = 0 then (x + 1) % max 1 dim else (x + max 1 dim - 1) % max 1 dim
      let there := (if axis = 0 then moved s.fab.x s.fab.dx else s.fab.x, if axis = 1 then moved s.fab.y s.fab.dy else s.fab.y,
        if axis = 2 then moved s.fab.z s.fab.dz else s.fab.z)
      let ok := (px, py, pz) = there ∧ pgroup = (if l.group % 2 = 0 then l.group + 1 else l.group - 1) ∧ plink / 18 = n / 18
      (ok → s.time.state ≠ 0 →
        ∃ k, exec (.negotiateDone n px py pz plink pgroup serial) s = .next (put k) ∧ k.state = 4 ∧ k.peer = ⟨px, py, pz, plink, pgroup, serial % 2 ^ 32, true⟩ ∧
          k.txSeq = 0 ∧ k.rxSeq = 0 ∧ k.unacked = [] ∧ k.group = l.group) ∧
      (¬ ok → n < 36 → ∃ t k, exec (.negotiateDone n px py pz plink pgroup serial) s = .next t ∧ t.links[n]? = some k ∧ k.state = 6 ∧ k.failCode = 3)) ∧
    (l.state = 4 → l.held = [] → (l.retrainTimes.filter fun t => s.now < t + 60000000000).length < 3 →
      ∃ k, exec (.linkSilence n) s = .next (put k) ∧ k.state = 5 ∧ k.retrains = min (l.retrains + 1) 255 ∧ k.txSeq = l.txSeq ∧ k.rxSeq = l.rxSeq ∧
        k.unacked = l.unacked ∧ s.now ∈ k.retrainTimes) ∧
    (l.state = 4 → l.held = [] → 3 ≤ (l.retrainTimes.filter fun t => s.now < t + 60000000000).length → s.time.parent ≠ n → n < 36 →
      ∃ t k, exec (.linkSilence n) s = .next t ∧ t.links = s.links.set n k ∧ k.state = 6 ∧ k.failCode = 5 ∧
        Logged s { s with links := t.links } t 3 (if n < 18 then 4 else 5) n [(32, 1, 5)]) ∧
    (l.disabling = true → s.Calm → (∀ o ∈ s.outs, o.cmd = .linkDisable n → o.phase ≠ .running) →
      ∃ k, exec (.linkDisableStop n) s = .next (put k) ∧ k.state = 0 ∧ k.failCode = 6 ∧ k.disabling = false ∧ k.unacked = [] ∧ k.txq = []) ∧
    (l.disabling = true → s.Calm → ∃ t k, exec (.linkDisableStop n) s = .next t ∧ t.links[n]? = some k ∧ k.state = 0 ∧ k.failCode = 6 ∧
      ∀ o ∈ t.outs, o.cmd = .linkDisable n → o.phase ≠ .running)

/-- R294, R296, R297, R302: a data flit of the expected sequence number whose CRC matches is delivered, with the packet it completes; one that FEC could not
correct, or whose CRC does not match, is discarded with a NAK; on a NAK every flit from the one named on is sent again.
What it says beyond the rules is the model's choice: log entries 31, 39. -/
def Obligations.FlitsAndReplay : Prop :=
  ∀ (s : State) (n : Nat) (l : Link), s.links[n]? = some l → l.state = 4 → s.Calm →
    let only (t : State) (k : Link) : State := { s with links := s.links.set n k, free := s.free + 1, dev := { s.dev with cnt := t.dev.cnt } }
    let isNak (f : List Byte) : Prop := f.length = 256 ∧ fieldAt f 0 1 / 16 % 4 = 2 ∧ fieldAt f 0 8 / 2 ^ 6 % 2 ^ 12 = l.rxSeq % 2 ^ 12
    (∀ f : List Byte, f.length = 256 → fieldAt f 252 4 = crc32 (f.take 252) → fieldAt f 0 1 / 16 % 4 = 0 → fieldAt f 0 8 / 2 ^ 6 % 2 ^ 12 = l.rxSeq →
      ∃ t k, exec (.flitReceive n f true) s = .next t ∧ t.links[n]? = some k ∧ k.rxSeq = (l.rxSeq + 1) % 4096 ∧ k.state = 4 ∧ k.crcErr = l.crcErr ∧
        k.naksSent = l.naksSent ∧
        ∀ p, l.rx = [] → l.unacked = [] → l.txq = [] → bytesAt f 8 244 = p ++ List.replicate (244 - p.length) 0 → 24 ≤ p.length → packetLen p = p.length →
          (∃ b ∈ p.take 24, b ≠ 0) → packetDst p = (s.fab.x, s.fab.y, s.fab.z) →
          (4 * l.group + channelOf (packetKind p), packetNseq p) ∉ s.nseqSeen → t.delivered = (channelOf (packetKind p), p) :: s.delivered) ∧
    (∀ f : List Byte, f.length ≠ 256 ∨ fieldAt f 252 4 ≠ crc32 (f.take 252) →
      ∃ t k nak, exec (.flitReceive n f true) s = .next t ∧ t = only t k ∧ isNak nak ∧
        k = { l with crcErr := (l.crcErr + 1) % 2 ^ 64, naksSent := l.rxSeq :: l.naksSent, fecCorr := k.fecCorr, wasBad := false, flits := nak :: l.flits
                     owed := k.owed, ctlGap := k.ctlGap }) ∧
    (∀ f, (l.badTimes.filter fun t => s.now < t + 1000000).length < 15 →
      ∃ t k nak c, exec (.flitReceive n f false) s = .next t ∧ t = only t k ∧ isNak nak ∧ c ≤ 1 ∧ (l.wasBad = false → c = 1) ∧
        k = { l with fecUncorr := (l.fecUncorr + c) % 2 ^ 64, naksSent := l.rxSeq :: l.naksSent, wasBad := true, flits := nak :: l.flits
                     owed := k.owed, ctlGap := k.ctlGap
                     badTimes := List.replicate c s.now ++ l.badTimes.filter fun t => s.now < t + 1000000 }) ∧
    (∀ seq x rest, l.unacked = (seq, x) :: rest → seq < 4096 → (∀ u ∈ l.unacked, u.1 ≠ (seq + 4095) % 4096) → l.nakSeq ≠ seq →
      ∃ t k, exec (.nak n seq) s = .next t ∧ t = { only t k with free := s.free } ∧
        k = { l with nakSeq := seq, nakRun := 1, replay := (l.replay + l.unacked.length) % 2 ^ 64, flits := k.flits, owed := k.owed, acks := k.acks
                     sinceAck := 0, ctlGap := k.ctlGap } ∧
        k.flits.length = l.unacked.length + l.flits.length ∧
        ∀ (i : Nat) (u : Nat × TxFlit), l.unacked[i]? = some u → ∃ f, k.flits[l.unacked.length - 1 - i]? = some f ∧ fieldAt f 0 1 / 16 % 4 = 0 ∧
          fieldAt f 0 8 / 2 ^ 6 % 2 ^ 12 = u.1 % 2 ^ 12 ∧ bytesAt f 8 244 = bytesAt u.2.body 0 244)

/-- R311, R322: UNDELIVERABLE and a WRITE that is not acknowledged within 2 ms name a device as unreachable: the requests to it fail, others do not.
What it says beyond the rules is the model's choice: log entry 31. -/
def Obligations.UnreachableDevices : Prop :=
  ∀ (s : State) (x y z : Nat), s.Calm → s.colls = [] → (∀ j ∈ s.jobs, j.snap.state ≠ 2) →
    ((∀ c ∈ s.cores, c.dma.reqs = []) →
      exec (.undeliverable x y z) s = .next { s with unreachCnt := (s.unreachCnt + 1) % 2 ^ 64 } ∧ exec (.writeAckTimeout x y z) s = .next s) ∧
    (∀ n c r i, s.cores.length = n + 1 → s.core? n = some c → (∀ m < n, ∀ d, s.core? m = some d → d.dma.reqs = []) → Served c → c.dma.reqs = [r] →
      (c.cpu.st = .running ∨ c.cpu.st = .stopped) → r.phase = .ack → State.itemOfReq c r = some i → r.sentAt ≤ s.now →
      (∃ target, s.dstDest i r.piece.dst = .remote (x, y, z) target) →
      let failed (d : Core) : Prop := d.dma = { c.dma with
        reqs := [], q := c.dma.q.map fun q => if q.uid == i.uid then { q with failAt := some (match q.failAt with
          | some f => min f r.piece.off
          | none => r.piece.off) } else q }
      (∃ t d, exec (.undeliverable x y z) s = .next t ∧ t.unreachCnt = (s.unreachCnt + 1) % 2 ^ 64 ∧ t.core? n = some d ∧ failed d ∧ t.mem = s.mem) ∧
      ∃ t d, exec (.writeAckTimeout x y z) s = .next t ∧ t.now = max s.now (r.sentAt + 2000000) ∧ t.core? n = some d ∧ failed d ∧ t.mem = s.mem)

/-- R325, R327, R329-R331: the time master: the one step to its source's time, the lock, the removal of an offset by slewing, the loss of the source and its return.
What it says beyond the rules is the model's choice: log entry 38. -/
def Obligations.TimeMaster : Prop :=
  ∀ s : State, s.time.role = 1 → s.time.parent < 64 →
    (∀ gm, s.fab.source = 2 → s.time.stepped = false →
      ∃ t, exec (.ptpMessage gm) s = .next t ∧ t.now = gm ∧ t.time.state = 2 ∧ t.time.valid = true ∧ t.time.stepped = true ∧ t.time.srcLocked = true ∧
        t.time.hops = 0 ∧ t.time.parent = 63 ∧ t.cores = s.cores ∧ t.mem = s.mem) ∧
    (∀ gm, s.fab.source = 2 → s.time.stepped = true →
      ∃ t, exec (.ptpMessage gm) s = .next t ∧ t.now = (if s.time.srcLost = true ∨ s.time.slewing = true then s.now else max s.now gm) ∧
        t.time.state = 2 ∧ t.time.srcLocked = true ∧ t.time.srcLost = false ∧
        t.time.srcOffset = (t.now : Int) - (gm : Int) ∧ (t.time.slewing = true ↔ 10 < t.time.srcOffset.natAbs) ∧ t.mem = s.mem) ∧
    (s.fab.source = 1 → s.time.stepped = false →
      ∃ t, exec .ppsMark s = .next t ∧ t.now = s.initSetting * 1000000000 ∧ t.time.state = 2 ∧ t.time.valid = true ∧ t.cores = s.cores) ∧
    (s.fab.source = 1 → s.time.stepped = true → ∃ t, exec .ppsMark s = .next t ∧ s.now ≤ t.now ∧ t.time.state = 2 ∧ t.time.srcLocked = true) ∧
    (s.time.srcLocked = true → ∃ t, exec .sourceLoss s = .next t ∧ t.time = { s.time with srcLost := true, srcLocked := false } ∧
      Logged s { s with time := t.time } t 4 5 (if s.time.parent = 63 then 0xFFFFFFFF else s.time.parent) [(32, 1, s.time.state % 256)] ∧ t.now = s.now) ∧
    (s.time.srcLost = true → ∃ t, exec .sourceReturn s = .next t ∧
      t = { s with free := s.free + 1, time := { s.time with srcLost := false, srcLocked := true, slewing := true, srcOffset := t.time.srcOffset } })

/-- R325, R332-R334, R336, R337: a device that is not the master: the first symbol from its parent steps its time, later ones never set it back; it keeps its time in
HOLDOVER and UNLOCKED; a standby master takes over after 1 ms; every ACTIVE link carries symbols.
What it says beyond the rules is the model's choice: log entry 38. -/
def Obligations.TimeFollowers : Prop :=
  ∀ s : State, s.time.role ≠ 1 → s.time.parent < 64 →
    (∀ n l tTx roundPs turnPs hops master, s.links[n]? = some l → l.state = 4 → (∀ m k, s.links[m]? = some k → m ≠ n → k.state ≠ 4) → hops < 255 →
      s.time.valid = false → l.delayCount = 0 →
      let delay := (roundPs - turnPs) / 2
      (s.time.state = 0 → s.time.stepped = false →
        ∃ t, exec (.timeSym n tTx roundPs turnPs hops master) s = .next t ∧ t.now = tTx + delay / 1000 ∧ t.time.state = 1 ∧ t.time.stepped = true ∧
          t.time.parent = n ∧ t.time.hops = min 126 (hops + 1) ∧ t.cores = s.cores) ∧
      (s.time.state = 1 → s.time.stepped = true →
        ∃ t, exec (.timeSym n tTx roundPs turnPs hops master) s = .next t ∧ t.now = max s.now (tTx + delay / 1000) ∧ t.time.parent = n ∧
          (t.time.state = 1 ∨ (t.time.state = 2 ∧ t.time.valid = true)))) ∧
    (∀ n l, s.links[n]? = some l → l.state = 4 → l.disabling = false →
      ∃ t p, exec (.timeSymSend n) s = .next t ∧ t.packets = ((l.peer.x, l.peer.y, l.peer.z), 1, p) :: s.packets ∧ p.length = 56 ∧
        fieldAt p 24 8 = s.now % 2 ^ 64 ∧ fieldAt p 32 8 = l.lastTx % 2 ^ 64 ∧ fieldAt p 45 1 = s.time.state % 256 ∧ t.time = s.time ∧ t.now = s.now ∧
        t.cores = s.cores) ∧
    (s.time.state = 2 → ∃ t, exec .holdoverEntry s = .next t ∧ t = { s with
      links := t.links, time := { s.time with state := 3, holdSince := s.now, parent := 63, hops := 127, within := none } }) ∧
    (s.time.state = 3 → s.time.holdSince + 1000000 ≤ s.now → ∃ t, exec .unlockedEntry s = .next t ∧
      Logged s { s with time := { s.time with state := 4, holdSince := s.now } } t 4 5 (if s.time.parent = 63 then 0xFFFFFFFF else s.time.parent)
        [(32, 1, 4), (33, 1, 3)]) ∧
    (s.time.role = 2 → s.time.state = 4 → ∃ t, exec .standbyTakeover s = .next t ∧
      Logged s { s with time := { s.time with role := 1, state := 2, hops := 0, parent := 63, master := s.fuses.serial % 65536 } } t 4 5 0xFFFFFFFF [(32, 1, 2), (33, 1, 4), (34, 1, 1)])

/-- R28, R300, R305, R338, R349, R356, R362, R367, R371, R372, R427, R429, R430, R474: the commands of the device itself with one reply: what each does as it
is taken up, and the reply that says so.
What it says beyond the rules is the model's choice: log entries 45, 58. -/
def Obligations.DeviceCommandsReply : Prop :=
  ∀ (s : State) (h : Hdr) (r : Ring), Ready s h r 1 →
    let done (i : Instr) (op st result : Nat) (u : State) : Prop := Ends1 s h r i op false st 0 0 result u
    (∀ w, let limit := max 600 (min w (if s.fuses.tk9620 then 1200 else 1500))
      done (.powerLimit h w) 0x0801 0 limit { s with power := { s.power with limitNext := some limit } }) ∧
    done (.timeQuery h) 0x0903 0 (if s.time.stepped = true then s.now % 2 ^ 64 else 0) s ∧
    (∀ n x, n < 64 → s.ring? n = some x → done (.ringQuery h n) 0x0906 0 x.subCons s) ∧
    (∀ a n buf, 0 < n → n ≤ 64 → a + 8 * n ≤ 2 ^ 32 →
      let words := ((s.devCount 0xD h.ring 1).readWords a n).2
      words.length = n ∧ words.headD 0 = (s.devCount 0xD h.ring 1).regVal a ∧
        Query s h r (.regRead h a n buf) 0x0904 false buf (words.flatMap (leBytes 8)) (words.headD 0) (s.readWords a n).1) ∧
    (∀ c b, c ≤ 63 → b ≤ 63 → (c ≠ 0 ∨ b ≠ 0) → done (.setLinkShares h c b) 0x0405 0 0 { s with shareNext := some (c, b) }) ∧
    (∀ k a b c d e, k ≤ 1 → (∀ x ∈ [a, b, c, d, e], x ≤ 63) → (∃ x ∈ [a, b, c, d, e], x ≠ 0) →
      done (.setFlueShares h k a b c d e) 0x0406 0 0 { s with flueNext := (s.flueNext.filter fun x => x.1 != k) ++ [(k, [a, b, c, d, e])] }) ∧
    (∀ n l, n < 36 → s.links[n]? = some l →
      (l.state = 7 → done (.linkEnable h n) 0x0403 4 0 s ∧ done (.linkDisable h n) 0x0404 4 0 s) ∧
      (l.state = 0 ∨ l.state = 6 → done (.linkEnable h n) 0x0403 0 1 { s with links := s.links.set n { l with state := 1, failCode := 0 } }) ∧
      (l.state ≠ 0 → l.state ≠ 6 → l.state ≠ 7 → done (.linkEnable h n) 0x0403 0 l.state s) ∧
      (l.state = 0 → done (.linkDisable h n) 0x0404 0 0 s) ∧
      (l.state = 1 ∨ l.state = 2 ∨ l.state = 3 ∨ l.state = 6 →
        done (.linkDisable h n) 0x0404 0 0 { s with links := s.links.set n { l.fresh with state := 0, failCode := 6 } }) ∧
      (l.state = 4 ∨ l.state = 5 → l.disabling = false → l.held = [] → s.time.parent ≠ n →
        Takes s h r 1 (.linkDisable h n) [] [] { s with
          outs := s.outs ++ [outRecord s h (.linkDisable n)], links := s.links.set n { l with disabling := true, unacked := [], txq := [] } })) ∧
    (∀ mask, mask < 64 →
      ∃ u, done (.traceTrigger h mask) 0x0602 0 0 u ∧ u = { s with trcs := u.trcs, mem := u.mem } ∧ u.trcs.length = s.trcs.length ∧
        (∀ a < 0x0C0800000000, u.mem.get a = s.mem.get a) ∧
        ∀ d t, s.trcs[d]? = some t →
          if mask.testBit d ∧ d < 6 ∧ t.mode = 3 ∧ t.state = 1 then ∃ v, u.trcs[d]? = some v ∧ v.trig = some t.next ∧ (v.state = 2 ∨ v.state = 3)
          else u.trcs[d]? = some t) ∧
    (∀ d mode post size t, d < 6 → mode ≤ 3 → 1 ≤ post → post ≤ 8 → size ∈ [16, 32, 64, 128, 256, 512, 1024, 2048, 4096] → s.trcs[d]? = some t →
      s.traceTotal d size ≤ s.traceMibSetting →
      (s.now % 10240 ≠ 0 →
        done (.traceConfig h d mode post size) 0x0601 0 0 { s with trcs := s.trcs.set d { t with pending := some (mode, post, size) } }) ∧
      (s.now % 10240 = 0 →
        ∃ v, done (.traceConfig h d mode post size) 0x0601 0 0 { s with trcs := s.trcs.set d v } ∧ v.mode = mode ∧ v.post = post ∧ v.sizeMib = size ∧
          v.state = (if mode = 0 then 0 else 1) ∧ v.next = t.next ∧ v.base = t.next ∧ v.trig = none ∧ v.lossCount = 0 ∧ v.pending = none)) ∧
    (∀ k e, k < 256 → s.dev.selNext = [] →
      (s.now % 10240 ≠ 0 → done (.counterSelect h 0xFFFF k e) 0x0603 0 0 { s with dev := { s.dev with selNext := [(k, e)] } }) ∧
      (s.now % 10240 = 0 →
        ∃ u, done (.counterSelect h 0xFFFF k e) 0x0603 0 0 u ∧ u.dev.resetMask.testBit k = true ∧
          u = { s with dev := { s.dev with sel := s.dev.sel.set k e, cnt := u.dev.cnt, prev := u.dev.prev, resetMask := u.dev.resetMask, resetTime := s.now } })) ∧
    (∀ n tag, n < 64 → (∀ o ∈ s.armed, ¬ (o.h.ring = n ∧ o.h.tag = tag)) → done (.releaseCancel h n tag) 0x0501 0 0 s) ∧
    (∀ x, s.armed.find? (fun o => o.h.ring == x.h.ring && o.h.tag == x.h.tag) = some x → x.h.ring < 64 → s.RingsOk →
      ∃ t, exec (.releaseCancel h x.h.ring x.h.tag) s = .next t ∧ t.outs = s.outs.filter (fun o => o.uid != x.uid) ∧ t.now = s.now)

/-- R349, R356, R357: RING_CREATE clears the new ring's sub_cons and cmp_prod and makes a ring that is serviceable from the next tick boundary; RING_DELETE of a
ring with no command outstanding takes it away at once.
What it says beyond the rules is the model's choice: log entries 45, 58. -/
def Obligations.RingsComeAndGo : Prop :=
  ∀ (s : State) (h : Hdr) (r : Ring),
    (∀ n sz c sub cmp, Ready s h r 1 → 0 < n → n < 62 → s.ring? n = none → 6 ≤ sz → sz ≤ 16 → 6 ≤ c → c ≤ 16 → sub % 64 = 0 → cmp % 64 = 0 →
      s.Plain sub (64 + 64 * 2 ^ sz) → s.Plain cmp (64 + 32 * 2 ^ c) → Apart sub (64 + 64 * 2 ^ sz) cmp (64 + 32 * 2 ^ c) →
      Apart sub (64 + 64 * 2 ^ sz) 0x080000000000 131072 → Apart cmp (64 + 32 * 2 ^ c) 0x080000000000 131072 →
      (∀ x ∈ s.rings, x.num < 62 →
        Apart sub (64 + 64 * 2 ^ sz) x.subBase (64 + 64 * 2 ^ x.s) ∧ Apart sub (64 + 64 * 2 ^ sz) x.cmpBase (64 + 32 * 2 ^ x.c) ∧
        Apart cmp (64 + 32 * 2 ^ c) x.subBase (64 + 64 * 2 ^ x.s) ∧ Apart cmp (64 + 32 * 2 ^ c) x.cmpBase (64 + 32 * 2 ^ x.c)) →
      Ends1 s h r (.ringCreate h n sz c sub cmp) 0x0701 false 0 0 0 0 { s with
        rings := s.rings ++ [⟨n, sz, c, sub, cmp, 0, 0, 0, [], false, true, false, [], false⟩]
        mem := (s.mem.write (sub + 8) (leBytes 8 0)).write cmp (leBytes 8 0) }) ∧
    (∀ n, Ready s h r 2 → 0 < n → n < 62 → n ≠ h.ring → (s.ring? n).isSome → (∀ o ∈ s.outs, o.h.ring ≠ n ∧ o.cmd ≠ .ringDelete n) →
      (∀ x ∈ s.rings, x.num = n → ∀ e ∈ x.held, e.reply = false) →
      Ends2 s h r (.ringDelete h n) 0x0702 false 0 0 0 0 { s with
        rings := s.rings.filter fun x => x.num != n, waitq := s.waitq.filter fun w => w.h.ring != n })

/-- R375, R444, R445, R454, R457-R459, R462, R472: what the firmware's own commands do as they are taken up. FW_STAGE's header and body go to the staging region once they
pass, and the command ends with its flash operation; a refused header or authorisation ends the command at once; DEVICE_RESET replies and resets.
What it says beyond the rules is the model's choice: log entries 37, 41. -/
def Obligations.FirmwareCommands : Prop :=
  ∀ (s : State) (h : Hdr) (r : Ring), Ready s h r 2 → (∀ o ∈ s.outs, o.cmd.opcode ≠ 0x0703) → (∀ f ∈ s.flashOps, State.stageOp f = false) →
    let u := s.nextUid
    let readable (a n : Nat) : Prop := h.ring = 63 ∨ (s.Plain a n ∧ Apart a n r.cmpBase (64 + 32 * 2 ^ r.c))
    (∀ src body, readable src 512 →
      let d := if h.ring = 63 then bytesAt body 0 512 else s.mem.read src 512
      let i : Instr := .fwStageHeader h 0 512 src body
      if s.headerCheck d = 0 then
        Runs2 s h r i 0x0703 false (outRecord s h (.fwStage 0 0 512 src body)) { s with
          flash := ((s.flashErase flashStaging (4096 + fieldAt d 16 4)).flashWrite flashStaging d).flash
          fw := { s.fw with session := true, pages := [], stgVersion := fieldAt d 12 4, staging := 1 }
          flashOps := s.flashOps ++ [.stageHeader u (fieldAt d 12 4)] }
      else Ends2 s h r i 0x0703 false 9 0 0 (s.headerCheck d) { s with fw := { s.fw with check := s.headerCheck d, staging := 3 } }) ∧
    (∀ off len src body, readable src len → s.fw.session = true → 0 < len → len ≤ (if h.ring = 63 then 3840 else 1048576) → off % 256 = 0 →
      (len % 256 = 0 ∨ off + len = s.stagedLen) → off + len ≤ s.stagedLen → (∀ p ∈ s.fw.pages, p < off / 256 ∨ off / 256 + ceilDiv len 256 ≤ p) →
      let d := if h.ring = 63 then bytesAt body 0 len else s.mem.read src len
      Runs2 s h r (.fwStageBody h off len src body) 0x0703 false (outRecord s h (.fwStage 1 off len src body)) { s with
        flash := (s.flashWrite (flashStaging + 4096 + off) d).flash
        fw := { s.fw with pages := (List.range (ceilDiv len 256)).map (· + off / 256) ++ s.fw.pages }
        flashOps := s.flashOps ++ [.stageBody u (ceilDiv len 256 + s.fw.pages.length)] }) ∧
    (s.fw.session = true → ceilDiv s.stagedLen 256 ≤ s.fw.pages.length →
      let ok := s.bodyPasses flashStaging
      Runs2 s h r (.fwStageFinish h) 0x0703 false (outRecord s h (.fwStage 2 0 0 0 [])) { s with
        fw := if ok then { s.fw with session := false } else { s.fw with session := false, check := 9, staging := 3 }
        flashOps := s.flashOps ++ [.stageFinish u (if ok then s.fw.stgVersion else 9) ok] }) ∧
    (s.fw.session = false → Ends2 s h r (.fwStageFinish h) 0x0703 false 3 2 0 0 s) ∧
    (if s.fw.trial then Runs2 s h r (.fwConfirm h) 0x0704 false (outRecord s h .fwConfirm) { s with
        fw := { s.fw with confirmDog := none }, flashOps := s.flashOps ++ [.confirm u] }
      else Ends2 s h r (.fwConfirm h) 0x0704 false 0 0 0 0 s) ∧
    (∀ phys auth, (phys < 640 ∨ phys = 0xFFFF) → 128 ≤ auth.length →
      if s.authCheck 2 (some phys) auth = 0 then
        ∃ nonce, Runs2 s h r (.fenceClear h phys auth) 0x0705 false (outRecord s h (.fenceClear phys auth)) { s with
          free := s.free + 1, ash := { s.ash with nonce }, flashOps := s.flashOps ++ [.fenceClear u phys] }
      else ∃ v, Ends2 s h r (.fenceClear h phys auth) 0x0705 false 10 0 0 0 v ∧ LogsTo { s with free := s.free + 1 } v) ∧
    (∀ auth, 128 ≤ auth.length →
      if s.authCheck 1 none auth = 0 then
        ∃ nonce, Runs2 s h r (.ashClear h auth) 0x0606 false (outRecord s h (.ashClear auth)) { s with
          free := s.free + 1, ash := { s.ash with nonce }, flashOps := s.flashOps ++ [.ashClear u (min (fieldAt auth 8 8) (s.ash.next - 1))] }
      else ∃ v, Ends2 s h r (.ashClear h auth) 0x0606 false 10 0 0 0 v ∧ LogsTo { s with free := s.free + 1 } v) ∧
    (∀ addr, readable addr 64 → s.Plain addr 64 → (∀ b ∈ s.jobs, b.state = 0) → fabricInRange (s.mem.read addr 64) = true →
      ∃ v, Runs2 s h r (.fabricConfig h addr) 0x0402 false (outRecord s h (.fabricConfig addr)) v ∧
        v = { s with fab := fabricOf (s.mem.read addr 64), links := v.links, time := v.time, flashOps := s.flashOps ++ [.fabric u] } ∧
        ∀ (n : Nat) (l : Link), s.links[n]? = some l → ∃ k : Link, v.links[n]? = some k ∧ k.group = v.fab.groups.getD n 7 ∧ k.state = if l.state = 6 then 1 else l.state) ∧
    (∀ force, ((∀ b ∈ s.jobs, b.state = 0) ∨ force ≠ 0) →
      ∃ v t, exec (.deviceReset h force) s = .next t ∧ ResetFrom v t 2 ∧ t.pins.alive = false ∧ t.ash = { s.ash with nonce := t.ash.nonce } ∧
        v = { s with sent := v.sent, mgmtSeen := v.mgmtSeen } ∧
        v.sent = if h.ring = 63 then datagrams [replyOf s.now h 0x0706 false 1 0 0 0, replyOf s.now h 0x0706 false 0 0 0 0] [] ++ s.sent else s.sent) ∧
    ((∃ b ∈ s.jobs, b.state ≠ 0) → Ends2 s h r (.deviceReset h 0) 0x0706 false 3 4 0 0 s)

/-- R366, R376, R445, R448, R458, R462, R375: the oldest flash operation completes, and with it the command that it belongs to.
What it says beyond the rules is the model's choice: log entries 37, 41. -/
def Obligations.FlashOperationsComplete : Prop :=
  ∀ (s : State) (rest : List FlashOp), s.Calm → s.RingsOk →
    let ends (f : FlashOp) (u : Nat) (p : State → Prop) : Prop :=
      s.flashOps = f :: rest → (∀ o ∈ s.outs, o.uid ≠ u → o.cmd.opcode ≠ 0x0703) →
        ∃ t, exec .flashOperationComplete s = .next t ∧ t.flashOps = rest ∧ t.outs = s.outs.filter (fun o => o.uid != u) ∧ t.now = s.now ∧ p t
    (∀ u v, ends (.stageHeader u v) u fun t => t.flash = s.flash ∧ t.fw = s.fw) ∧
    (∀ u n, ends (.stageBody u n) u fun t => t.flash = s.flash ∧ t.fw = s.fw) ∧
    (∀ u v, ends (.stageFinish u v true) u fun t =>
      t.flash = (s.flashWrite (flashStaging + 0x200) (readyMark s.fw.stgVersion s.stagedLen)).flash ∧ t.fw = { s.fw with staging := 2 }) ∧
    (∀ u v, ends (.stageFinish u v false) u fun t => t.flash = s.flash ∧ t.fw = s.fw) ∧
    (∀ u, ends (.confirm u) u fun t => t.fw = { s.fw with trial := false, attempts := 0, fallback := false } ∧
      t.flash = (s.putBoot 0 0 0 0 s.fw.bootCount).flash) ∧
    (∀ u last, last < s.ash.next → ends (.ashClear u last) u fun t => t.ash.flashed = max s.ash.flashed last ∧ ∀ x ∈ t.ash.mirror, last < x.1) ∧
    (∀ u, ends (.fenceClear u 0xFFFF) u fun t => t.fenceList = []) ∧
    (∀ u phys, phys ≠ 0xFFFF → ends (.fenceClear u phys) u fun t => t.fenceList = s.fenceList.filter fun p => p != phys) ∧
    (∀ u, ends (.fabric u) u fun t => t.flash = s.putFabric.flash)

/-- R261, R281, R362-R365, R368-R371, R378, R387, R397: the job commands: what each leaves of its job context and of the cores, and whether it replies at once. A
JOB_LOAD that the free cores cannot hold waits for cores, as do a JOB_RESUME and a CELL_REPLACE.
What it says beyond the rules is the model's choice: log entries 28, 45, 56. -/
def Obligations.JobCommands : Prop :=
  ∀ (s : State) (h : Hdr) (r : Ring), Ready s h r 2 → s.jobs.length = 8 → h.job < 8 → (∀ o ∈ s.outs, o.h.job ≠ h.job) →
    let j := h.job
    let b := s.job j
    (∀ (p : JobLoad), b.state = (if bit p.flags 1 then 1 else 0) → s.loadBad p = false → p.gx * p.gy ≤ s.lcns → p.leads ≤ (s.cores.filter (·.lead)).length →
      s.programBad p.program = none → (h.ring = 63 ∨ Apart p.program 262208 r.cmpBase (64 + 32 * 2 ^ r.c)) → bit p.flags 0 = false →
      ∃ u, OnlyJob { s with loads := s.loads + 1 } u j ∧
        (let v := u.job j
        v.gx = p.gx ∧ v.gy = p.gy ∧ v.seed = p.seed ∧ v.argument = p.argument ∧ v.program = p.program ∧ v.priority = p.priority % 4 ∧ v.flags = p.flags ∧
          v.jobTag = p.jobTag ∧ v.ring = h.ring ∧ v.leads = p.leadCells.take p.leads ∧ (v.ox, v.oy, v.oz) = (p.ox, p.oy, p.oz) ∧
          (v.ex, v.ey, v.ez) = (p.ex, p.ey, p.ez)) ∧
        ((∃ n, Ends2 s h r (.jobLoad h p) 0x0101 true 0 0 0 n u ∧ (u.job j).state = 3 ∧ (u.job j).cells.length = p.gx * p.gy ∧
            ∀ c ∈ (u.job j).cells, c.valid = true) ∨
          (Runs2 s h r (.jobLoad h p) 0x0101 true { outRecord s h (.jobLoad p) with phase := .placing } u ∧ (u.job j).state = 2 ∧ u.cores = s.cores))) ∧
    (b.state = 3 ∨ b.state = 6 →
      ∃ u, Runs2 s h r (.jobStart h) 0x0102 true (outRecord s h .jobStart) u ∧ OnlyJob s u j ∧ (u.job j).state = 4 ∧ (u.job j).startUid = some s.nextUid ∧
        (∀ c ∈ b.cells, c.valid = true → ∀ k, s.core? c.lcn = some k →
          ∃ k', u.core? c.lcn = some k' ∧ k'.cpu.st = .running ∧ k'.withheld = b.snap.stop ∧ k'.job = k.job) ∧
        ∀ n, (∀ c ∈ b.cells, c.valid = true → c.lcn ≠ n) → u.core? n = s.core? n) ∧
    (b.state = 3 ∨ b.state = 6 → b.snap.stop = false →
      ∃ u, Ends2 s h r (.jobPreempt h) 0x0103 true 0 0 0 0 u ∧ OnlyJob s u j ∧ (u.job j).state = 5 ∧ CoresFreed s u j) ∧
    (b.state = 4 → b.snap.stop = false → (∃ c ∈ b.cells, c.valid = true ∧ ∃ k, s.core? c.lcn = some k ∧ k.cpu.st = .running) →
      ∃ u, Runs2 s h r (.jobPreempt h) 0x0103 true (outRecord s h .jobPreempt) u ∧ OnlyJob s u j ∧ (u.job j).state = 7 ∧
        (u.job j).preemptUid = some s.nextUid ∧
        ∀ n k, s.core? n = some k → u.core? n = some (if k.job = some j ∧ k.cpu.st ≠ .fenced then { k with stopSent := true } else k)) ∧
    (b.state = 5 → (∀ c ∈ b.cells, c.save.state = 2) →
      (s.gridFits j [] = none → bit b.flags 0 = false → Runs2 s h r (.jobResume h) 0x0104 true { outRecord s h .jobResume with phase := .placing } s) ∧
      ∀ l, s.gridFits j [] = some l → (∃ c ∈ b.cells, c.save.control.isSome ∧ c.restored = false) →
        ∃ u, Runs2 s h r (.jobResume h) 0x0104 true { outRecord s h .jobResume with phase := .placing } u ∧ OnlyJob s u j ∧ (u.job j).state = 5 ∧
          ∀ x ∈ l, ∀ k, u.core? x.2 = some k → k.job = some j ∧ k.withheld = true) ∧
    (b.state = 3 ∨ b.state = 5 ∨ b.state = 6 →
      ∃ u, Ends2 s h r (.jobUnload h) 0x0105 true 0 0 0 0 u ∧ OnlyJob { s with intents := u.intents } u j ∧ (u.job j).state = 1 ∧ (u.job j).cells = [] ∧
        (u.job j).wins = [] ∧ (u.job j).groups = [] ∧ CoresFreed s u j) ∧
    (b.state ≠ 0 → s.jobObjs j = [] → b.caps = [] → (∀ c ∈ s.colls, c.job ≠ j ∧ c.phase ≠ .released) →
      (∀ c ∈ s.cores, c.job = some j → c.dma.q = [] ∧ c.dma.bufs = [] ∧ c.dma.waiting = [] ∧ c.dma.tracked = []) →
      ∃ u, Ends2 s h r (.jobReset h) 0x0106 true 0 0 0 0 u ∧ OnlyJob { s with intents := u.intents } u j ∧ (u.job j).state = 0 ∧ (u.job j).cells = [] ∧
        (u.job j).wins = [] ∧ (u.job j).groups = [] ∧ (u.job j).caps = [] ∧ CoresFreed s u j) ∧
    (∀ cell c, b.state = 4 → b.cells[cell]? = some c → c.lost = true →
      (s.coreForCell c.lead = none →
        Runs2 s h r (.cellReplace h cell) 0x0107 true { outRecord s h (.cellReplace cell) with phase := .placing } s) ∧
      ∀ n k0, s.coreForCell c.lead = some n → s.core? n = some k0 →
        ∃ t d k, exec (.cellReplace h cell) s = .next t ∧ t.outs = s.outs ∧ t.now = s.now ∧ (t.job j).cells[cell]? = some d ∧ d.lcn = n ∧ d.valid = true ∧
          d.lost = false ∧ d.replaced = c.replaced + 1 ∧ t.core? n = some k ∧ k.job = some j ∧ k.cell = cell ∧ k.cpu.st = .running ∧ k.cpu.pc = 0) ∧
    (∀ g count addr bs, 1 ≤ b.state → b.state ≤ 6 → g < 256 → 0 < count → count ≤ 576 → s.fwRead addr (2 * count) = some bs →
      Ends1 s h r (.mcastSet h g count addr) 0x0108 true 0 0 0 0 { s with
        jobs := s.jobs.set j { b with groupsNext := b.groupsNext ++ [(g, (List.range count).map fun i => fieldAt bs (2 * i) 2)] } }) ∧
    ∀ buf, Query s h r (.jobQuery h buf) 0x0902 true buf (s.mem.read (0x0C0000000000 + 0x1000 * j) 64) b.state s

/-- R261, R264, R288, R370, R379, R381, R383, R387, R388: freed cores go to the job that waits; a stop request makes a core SAVING with its arrival path closed; its save puts
its stores and control record in its save area; a restore brings them back.
What it says beyond the rules is the model's choice: log entries 27, 56. -/
def Obligations.JobsStopSaveAndRestore : Prop :=
  ∀ s : State, s.jobs.length = 8 → s.RingsOk → (∀ c ∈ s.colls, c.phase ≠ .notifying ∧ (c.phase = .released → s.canBegin c = false)) →
    s.peerReplies = [] →
    s.stalled = [] → (∀ i ∈ s.intents, s.satisfied i = false) →
    (s.Calm → (∀ j < 8, s.waitingJob j = none) → (∀ o ∈ s.outs, o.phase ≠ .placing) → exec .jobPlace s = .next s) ∧
    (∀ j o p l, s.Calm → j < 8 → (∀ k < 8, k ≠ j → s.waitingJob k = none) → s.waitingJob j = some o → o.cmd = .jobLoad p → (s.job j).state = 2 →
      s.gridFits j [] = some l →
      ∃ t, exec .jobPlace s = .next t ∧ (t.job j).state = 3 ∧ (t.job j).cells.length = (s.job j).gx * (s.job j).gy ∧
        t.outs = s.outs.filter (fun x => x.uid != o.uid) ∧ t.now = s.now) ∧
    ∀ n c j cell, s.core? n = some c → c.job = some j → c.cell = cell → j < 8 → (∀ k < 8, k ≠ j → (s.job k).state ≠ 7) → (s.job j).caps = [] →
      (∀ b, (s.job j).cells[cell]? = some b → b.valid = true → b.lcn = n → c.stopSent = true → c.cpu.st = .running → c.dma.q = [] → c.dma.bufs = [] →
        ∃ t d e, exec (.stopRequest n) s = .next t ∧ t.core? n = some d ∧ d.cpu.st = .saving ∧ d.stopSent = false ∧ d.dma.closed = true ∧ d.stopTime = s.now ∧
          d.job = some j ∧ (t.job j).cells[cell]? = some e ∧ e.save.state = 1 ∧ e.save.control = none ∧ t.now = s.now) ∧
      (∀ b, (s.job j).cells[cell]? = some b → c.cpu.st = .saving → b.save.state = 1 → b.save.control = none →
        c.dma.waiting = [] → c.dma.tracked = [] →
        (∃ x y, (s.job j).cells[x]? = some y ∧ x ≠ cell ∧ y.valid = true ∧ ∀ k, s.core? y.lcn = some k → k.cpu.st ≠ .saving) →
        ∃ t e, exec (.coreSaveDone n) s = .next t ∧ (t.job j).cells[cell]? = some e ∧ e.save.control.isSome = true ∧
          (∀ a < 0x200000, t.mem.get (State.saveArea j cell + a) = c.cpu.scratch.get a) ∧
          (b.lead = true → ∀ a < 0x10000, t.mem.get (State.saveArea j cell + 0x200000 + a) = c.cpu.leadMem.get a) ∧
          (∀ a < 0x20000, t.mem.get (State.saveArea j cell + 0x210000 + a) = c.cpu.vfile.get a) ∧
          (∀ a < 0x40000, t.mem.get (State.saveArea j cell + 0x230000 + a) = c.cpu.accs.get a) ∧
          ∀ a, (a < State.saveArea j cell ∨ State.saveArea j cell + 0x280000 ≤ a) → t.mem.get a = s.mem.get a) ∧
      (∀ b o, (s.job j).cells[cell]? = some b → b.lcn = n → (s.job j).state = 5 → b.restored = false → c.withheld = true → b.save.state = 2 →
        b.save.control.isSome = true → s.waitingJob j = some o →
        (∃ x y, (s.job j).cells[x]? = some y ∧ x ≠ cell ∧ y.restored = false) →
        ∃ t d e, exec (.cellRestoreComplete j cell) s = .next t ∧ t.core? n = some d ∧ (t.job j).cells[cell]? = some e ∧ e.restored = true ∧
          d.cpu.st = .idle ∧ d.withheld = true ∧ (∀ a < 0x200000, d.cpu.scratch.get a = s.mem.get (State.saveArea j cell + a)) ∧
          (∀ a < 0x20000, d.cpu.vfile.get a = s.mem.get (State.saveArea j cell + 0x210000 + a)) ∧ t.mem = s.mem)

/-- R235-R239, R244-R248, R251-R256, R362: the placement commands and the window commands of a job: the objects they map and unmap, the intents they queue, the pins they
count, and the windows they set, start and stop.
What it says beyond the rules is the model's choice: log entries 22, 23, 24, 25, 26. -/
def Obligations.PlacementCommands : Prop :=
  ∀ (s : State) (h : Hdr) (r : Ring), Ready s h r 2 → s.jobs.length = 8 → h.job < 8 → 1 ≤ (s.job h.job).state → (s.job h.job).state ≤ 6 →
    let j := h.job
    let u := s.nextUid
    (∀ p : ObjMap, let first := (p.first - 0x100000000000) / 65536
      p.first % 65536 = 0 → 0x100000000000 ≤ p.first → 0 < p.count → p.first + 65536 * p.count ≤ 0x180000000000 → p.layout < 2 →
      (p.layout = 1 → p.fmt < 16 ∧ fmtReserved p.fmt = false) → p.block < 4 → p.group < 64 →
      (∀ x ∈ s.objs, first + p.count ≤ x.first ∨ x.first + x.count ≤ first) → s.objs.length < 16384 → s.mappedCount + p.count ≤ s.memReg.tieredMib * 16 →
      p.count ≤ s.freeFrames 0 + s.freeFrames 1 → (∀ i ∈ s.intents, i.block < first ∨ first + p.count ≤ i.block) →
      ∃ n v, Ends1 s h r (.objMap h p) 0x0201 true 0 0 0 n v ∧ v = { s with objs := v.objs, blks := v.blks, mem := v.mem, free := v.free } ∧
        (∀ x ∈ s.objs, x.num ≠ n) ∧
        v.objs = s.objs ++ [⟨n, first, p.count, p.layout, p.fmt, p.block, if p.group < 32 then p.group else 63, j, bit p.flags 0, bits p.flags 1 1, 0,
          p.rows, p.cols⟩] ∧
        (∀ i < p.count, v.mapped (first + i) = true) ∧
        ∀ a, v.mem.get a = if p.first ≤ a ∧ a < p.first + 65536 * p.count then 0 else s.mem.get a) ∧
    (∀ (n : Nat) (x : Obj), n < 16384 → s.obj? n = some x →
      let inside (b : Nat) : Prop := x.first ≤ b ∧ b < x.first + x.count
      let calm : Prop := (∀ i ∈ s.intents, ¬ inside i.block) ∧ ∀ m ∈ s.moves, ¬ inside m.block ∧ ∀ i ∈ m.for_, ¬ inside i.block
      let all (t : Nat) (st : BState) (first count : Nat) : Prop :=
        ∀ b, x.first + first ≤ b → b < x.first + first + count → ∃ k, s.blk? b = some k ∧ k.state = st ∧ k.tier = t ∧ k.poisoned = false
      let blocks (first count : Nat) : List Nat := (List.range count).map (· + (x.first + first))
      let queued (first count : Nat) (rise : Bool) (cls : Nat) (o : Origin) : List Intent := s.intents ++ (blocks first count).map fun b => ⟨b, rise, cls, o⟩
      let pins (k : Nat) : List Obj := s.objs.map fun y => if y.num == n then { y with pins := k } else y
      (calm → ∃ v, Ends2 s h r (.objUnmap h n) 0x0202 true 0 0 0 0 v ∧ v = { s with objs := s.objs.filter fun y => y.num != n, blks := v.blks, mem := v.mem, kept := v.kept } ∧
        (∀ i < x.count, v.mapped (x.first + i) = false) ∧
        (∀ i < x.count, ∀ k g, s.blk? (x.first + i) = some k → k.image = some g → ∃ e ∈ v.kept, e.1 = x.first + i ∧ e.2.job = g.job) ∧
        ∀ a, v.mem.get a = if State.blkAddr x.first ≤ a ∧ a < State.blkAddr (x.first + x.count) then 0 else s.mem.get a) ∧
      (∀ first count, calm → 0 < count → first + count ≤ x.count →
        (all 1 .base first count → Runs2 s h r (.placeRise h n first count) 0x0203 true
          { outRecord s h (.placeRise n first count) with blocks := blocks first count } { s with intents := queued first count true 1 (.command u) }) ∧
        (all 0 .heart first count → Ends2 s h r (.placeRise h n first count) 0x0203 true 0 0 0 count s) ∧
        (all 0 .heart first count → (∀ b ∈ blocks first count, s.held b = false) → Runs2 s h r (.placeSink h n first count) 0x0204 true
          { outRecord s h (.placeSink n first count) with blocks := blocks first count } { s with intents := queued first count false 1 (.command u) }) ∧
        (all 1 .base first count → (∀ b ∈ blocks first count, s.held b = false) → Ends2 s h r (.placeSink h n first count) 0x0204 true 0 0 0 count s)) ∧
      (0 < x.pins → x.pins < 65535 → Ends1 s h r (.pin h n) 0x0205 true 0 0 0 (x.pins + 1) { s with objs := pins (x.pins + 1) }) ∧
      (x.pins = 0 → s.pinnedBlocks + x.count + s.heldBlocks ≤ s.frames 0 → calm → all 1 .base 0 x.count →
        Ends1 s h r (.pin h n) 0x0205 true 0 0 0 1 { s with objs := pins 1, intents := queued 0 x.count true 2 (.pin n) }) ∧
      (x.pins = 0 → Ends1 s h r (.unpin h n) 0x0206 true 0 0 0 0 s) ∧
      (1 < x.pins → Ends1 s h r (.unpin h n) 0x0206 true 0 0 0 (x.pins - 1) { s with objs := pins (x.pins - 1) }) ∧
      (x.pins = 1 → Ends1 s h r (.unpin h n) 0x0206 true 0 0 0 0 { s with objs := pins 0, intents := s.intents.filter fun i => i.origin != .pin n }) ∧
      ∀ first count buf, count ≤ 4096 → first + count ≤ x.count →
        Query s h r (.placeQuery h n first count buf) 0x0901 true buf (s.objRecord x ++ (List.range count).flatMap fun i => s.blkRecord (x.first + first + i))
          x.count s) ∧
    (let others (v : State) : Prop := v = { s with jobs := v.jobs, intents := v.intents } ∧ ∀ k, k ≠ j → v.job k = s.job k
    (∀ n addr d, n < 32 → s.fwRead addr 64 = some d → 1 ≤ fieldAt d 8 2 → fieldAt d 8 2 ≤ 4096 → 1 ≤ fieldAt d 10 1 → fieldAt d 10 1 ≤ 8 → fieldAt d 0 8 % 32 = 0 →
      fieldAt d 11 1 < 4 → (bit (fieldAt d 11 1) 1 = true → 1 ≤ fieldAt d 12 4 ∧ fieldAt d 12 4 ≤ 512) →
      ∃ v w, Ends1 s h r (.winSet h n addr) 0x0207 true 0 0 0 0 v ∧ others v ∧ v.intents = s.intents ∧
        (v.job j).wins = ((s.job j).wins.filter fun x => x.num != n) ++ [w] ∧ w.num = n ∧ w.listAddr = fieldAt d 0 8 ∧ w.regions = fieldAt d 8 2 ∧
        w.depth = fieldAt d 10 1 ∧ w.flags = fieldAt d 11 1 ∧ w.predict = fieldAt d 12 4 ∧ w.leadNs = fieldAt d 16 8 ∧ w.lateNs = fieldAt d 24 8 ∧
        w.periodNs = fieldAt d 32 8 ∧ w.histAddr = fieldAt d 40 8 ∧ w.routeAddr = fieldAt d 48 8 ∧ (s.win? j n = none → w.active = false)) ∧
    ∀ n w, n < 32 → s.win? j n = some w →
      (∀ bs, s.fwRead w.listAddr (32 * w.regions) = some bs →
        ∃ v x, Ends1 s h r (.winStart h n) 0x0208 true 0 0 0 s.now v ∧ others v ∧ v.win? j n = some x ∧ x.active = true ∧ x.cursor = 0 ∧ x.reverse = false ∧
          x.runs = 0 ∧ x.start = (s.now : Int) ∧ x.late = 0 ∧ x.skipped = 0 ∧ x.list.length = w.regions ∧
          ∀ i (y : WinRegion), x.list[i]? = some y → y.addr = fieldAt bs (32 * i) 8 ∧ y.blocks = fieldAt bs (32 * i + 8) 4 ∧ y.held = false ∧ y.seen = false) ∧
      ∃ v x, Ends1 s h r (.winStop h n) 0x0209 true 0 0 0 0 v ∧ others v ∧ v.win? j n = some x ∧ x.active = false ∧ (∀ y ∈ x.list, y.held = false) ∧
        x.list.length = w.list.length)

/-- R28, R282, R300, R326, R338, R352-R355, R427, R429, R474, R484: TICK moves fabric time to the next tick boundary, where what was accepted comes into force and commands that wait are
taken up; a command that waits for its release or its fence takes effect when it comes; a deadline that passes ends its command with ST_TIMEOUT.
What it says beyond the rules is the model's choice: log entries 45, 46. -/
def Obligations.TicksReleasesDeadlinesFences : Prop :=
  ∀ s : State, s.Calm → s.RingsOk → s.jobs.length = 8 →
    let next := (s.now / 10240 + 1) * 10240
    (s.fw.stage < 3 → s.armed = [] →
      ∃ t, exec .tick s = .next t ∧ t = { s with
        now := next, mtime := s.mtime + (next - s.now) / 10, clockAt := t.clockAt, cores := t.cores, free := t.free, dev := { s.dev with cnt := t.dev.cnt } } ∧
        t.cores.length = s.cores.length) ∧
    (3 ≤ s.fw.stage → s.fw.stage ≤ 4 → s.armed = [] → s.rings = [] → (∀ b ∈ s.jobs, b.wins = []) →
      ∃ t, exec .tick s = .next t ∧ t.now = next ∧ t.mtime = s.mtime + (next - s.now) / 10 ∧ t.outs = s.outs ∧ t.fw.stage = 4 ∧
        (t.shareColl, t.shareBulk) = s.shareNext.getD (s.shareColl, s.shareBulk) ∧ t.shareNext = none ∧
        t.flueCore = ((s.flueNext.find? fun x => x.1 == 0).map (·.2)).getD s.flueCore ∧
        t.fluePort = ((s.flueNext.find? fun x => x.1 == 1).map (·.2)).getD s.fluePort ∧ t.flueNext = [] ∧
        t.power.limit = s.power.limitNext.getD s.power.limit ∧ t.power.limitNext = none ∧ t.dev.selNext = [] ∧
        (∀ (d : Nat) (x : Trc) (mode post size : Nat), s.trcs[d]? = some x → x.pending = some (mode, post, size) →
          ∃ v : Trc, t.trcs[d]? = some v ∧ v.mode = mode ∧ v.post = post ∧ v.sizeMib = size ∧ v.pending = none ∧ v.state = if mode = 0 then 0 else 1) ∧
        ∀ (j : Nat) (b : Job), s.jobs[j]? = some b → ∃ v : Job, t.jobs[j]? = some v ∧ v.groupsNext = [] ∧ v.state = b.state) ∧
    (∀ (r : Ring) (h : Hdr) (w units ip port seq : Nat), s.fw.stage = 4 → s.armed = [] → s.outs = [] → s.rings = [r] → r.num = 63 → h.ring = 63 → h.rt = none →
      (∀ b ∈ s.jobs, b.wins = [] ∧ b.startUid = none) → s.waitq = [⟨h, .powerLimit w, units, (ip, port, seq), none⟩] →
      ∃ t q d, exec .tick s = .next t ∧ t.now = next ∧ t.waitq = [] ∧ t.outs = [] ∧ t.power.limitNext = some (s.clampLimit w) ∧ t.rings = [q] ∧
        q.subCons = r.subCons + units ∧ t.sent = .datagram ip port d :: s.sent ∧ fieldAt d 8 2 = 0 ∧ fieldAt d 12 2 = 0x0801) ∧
    (∀ (k : Nat) (o : Out) (c b : Nat), s.armed[k]? = some o → o.cmd = .setLinkShares c b → c ≤ 63 → b ≤ 63 → (c ≠ 0 ∨ b ≠ 0) → o.h.fence = false →
      (∀ x ∈ s.outs, x.uid = o.uid → x = o) →
      ((∀ x ∈ s.armed, o.releaseAt ≤ x.releaseAt) →
        ∃ t, exec (.commandRelease k) s = .next t ∧ t.now = max s.now o.releaseAt ∧ t.shareNext = some (c, b) ∧ t.outs = s.outs.filter (fun x => x.uid != o.uid)) ∧
      ((∃ x ∈ s.armed, x.releaseAt < o.releaseAt) → exec (.commandRelease k) s = .next s)) ∧
    (∀ (k : Nat) (o : Out) (d : Nat), s.running[k]? = some o → o.deadline = some d → o.cmd.opcode ∉ [0x0101, 0x0104, 0x0203, 0x0204, 0x0302, 0x0303, 0x0401] →
      (∀ x ∈ s.outs, x.uid = o.uid → x = o) →
      ∃ t, exec (.commandDeadline k) s = .next t ∧ t.now = max s.now d ∧ t.outs = s.outs.filter (fun x => x.uid != o.uid) ∧
        (o.h.ring = 63 → ∃ e, t.sent = .datagram o.from_.1 o.from_.2.1 e :: s.sent ∧ fieldAt e 9 1 = 6 ∧ fieldAt e 16 4 = o.h.tag % 2 ^ 32)) ∧
    (∀ (k : Nat) (o : Out) (c b : Nat), (s.outs.filter fun x => x.phase == .fenced)[k]? = some o → o.cmd = .setLinkShares c b → c ≤ 63 → b ≤ 63 → (c ≠ 0 ∨ b ≠ 0) →
      (∀ x ∈ s.outs, x.uid = o.uid → x = o) →
      ((∀ x ∈ s.outs, x.h.ring = o.h.ring → o.uid ≤ x.uid) →
        ∃ t, exec (.fencedCommandEffect k) s = .next t ∧ t.now = s.now ∧ t.shareNext = some (c, b) ∧ t.outs = s.outs.filter (fun x => x.uid != o.uid)) ∧
      ((∃ x ∈ s.outs, x.h.ring = o.h.ring ∧ x.uid < o.uid) → exec (.fencedCommandEffect k) s = .next s))

/-- R313, R315-R318, R320, R322: COLL_RUN copies its descriptor, and starts at once when its engine runs fewer than 8 collectives, reading its input for its peers; a peer's
contribution is kept; an abort ends the collective with ST_ERROR on its engines; GLOBAL_NORM keeps the slots whose stamp matches; a collective whose axes have all run
writes its output and replies.
What it says beyond the rules is the model's choice: log entries 32, 36. -/
def Obligations.CollectivesRunAndEnd : Prop :=
  ∀ s : State, s.jobs.length = 8 → (∀ c ∈ s.colls, c.phase ≠ .released ∧ c.phase ≠ .notifying ∧ c.uid < s.nextUid) →
    (∀ (h : Hdr) (r : Ring) (addr : Nat) (d : List Byte) (g : CollEngine),
      let c : Coll := ⟨s.nextUid, h.ring, h.tag, h.job, d, [], .accepted, [], [], [], [], 0, 0, 0, false, false⟩
      let o : Out := { outRecord s h (.collRun addr) with deadline := some ((tickOf s.now + h.dl.getD 4096) * 10240) }
      let busy : Nat := (s.colls.filter fun x => x.busy && x.engines.contains c.engine).length
      Ready s h r 2 → s.jobLive h.job = true → (s.job h.job).snap.stop = false → s.fwRead addr 64 = some d →
      (h.ring = 63 ∨ Apart addr 64 r.cmpBase (64 + 32 * 2 ^ r.c)) → c.invalid = false → c.engine < 4 → s.engines[c.engine]? = some g → g.present = true →
      g.failed = false →
      (8 ≤ busy → Runs2 s h r (.collRun h addr) 0x0401 true o { s with colls := s.colls ++ [{ c with engines := [c.engine], phase := .released }] }) ∧
      (busy < 8 → c.op = 0 → 0 < c.count → 2 ≤ (s.job h.job).extent ((State.collAxes c).headD 0) →
        s.Plain c.src (c.count * elemBytes c.inFmt) → (h.ring = 63 ∨ Apart c.src (c.count * elemBytes c.inFmt) r.cmpBase (64 + 32 * 2 ^ r.c)) →
        ∃ t, exec (.collRun h addr) s = .next t ∧ t.outs = s.outs ++ [o] ∧ t.now = s.now ∧ t.jobs = s.jobs ∧ t.cores = s.cores ∧
          t.colls = s.colls ++ [{ c with
            engines := [c.engine], phase := .running, axes := State.collAxes c, work := s.mem.read c.src (c.count * elemBytes c.inFmt) }])) ∧
    ∀ (c : Coll), s.Calm → s.RingsOk → s.coll? c.ring c.tag = some c → (∀ x ∈ s.colls, x.uid = c.uid → x = c) → c.phase = .running →
      let gone (t : State) : Prop := t.colls = s.colls.filter (fun x => x.uid != c.uid) ∧ t.outs = s.outs.filter (fun x => x.uid != c.uid)
      let map (f : Coll → Coll) : State := { s with colls := s.colls.map fun x => if x.uid == c.uid then f x else x }
      (∀ a pos d missing rest, c.axes = a :: rest → a ∈ State.collAxes c → pos < (s.job c.job).extent a → pos ≠ s.position c.job a s.here →
        (∀ g ∈ c.got, ¬ (g.1 = a ∧ g.2.1 = pos)) → missing < (s.job c.job).extent a → missing ≠ pos → missing ≠ s.position c.job a s.here →
        (∀ g ∈ c.got, ¬ (g.1 = a ∧ g.2.1 = missing)) →
        exec (.collData c.ring c.tag a pos d) s = .next (map fun x => { x with got := x.got ++ [(a, pos, d)] })) ∧
      (c.norm = false → c.notify = false → s.intents = [] → s.moves = [] → ∀ e g, e ∈ c.engines → s.engines[e]? = some g →
        ∃ t, exec (.collCtrl c.ring c.tag) s = .next t ∧ gone t ∧ t.engines[e]? = some { g with
          count := (g.count + 1) % 2 ^ 64, failLast := ⟨3, c.op, c.job, c.tag, true⟩ }) ∧
      (c.norm = true → c.work = [] → ∀ l, s.readSlots c = some l → l.length ≠ c.contributors →
        ∃ t, exec (.globalNormPoll c.ring c.tag) s = .next t ∧ t = { s with
          dev := { s.dev with cnt := t.dev.cnt }, colls := (map fun x => { x with slots := l, work := [] }).colls }) ∧
      (c.norm = true → c.work = [] → s.readSlots c = none → c.notify = false → s.intents = [] → s.moves = [] → ∃ t, exec (.globalNormPoll c.ring c.tag) s = .next t ∧ gone t) ∧
      (c.norm = false → c.axes = [] → c.work ≠ [] → c.notify = false → s.Plain c.dst c.work.length → s.mem.wf = true →
        ∃ t, exec (.collComplete c.ring c.tag) s = .next t ∧ gone t ∧ t.now = s.now ∧
          ((∀ o ∈ s.outs, o.uid = c.uid → o.h.ring = 63) → (∀ b ∈ s.jobs, b.startUid ≠ some c.uid) →
            (∀ i b, c.work[i]? = some b → t.mem.get (c.dst + i) = b) ∧
            ∀ a < 0x0C0000000000, (a < c.dst ∨ c.dst + c.work.length ≤ a) → t.mem.get a = s.mem.get a)) ∧
      ((c.axes ≠ [] ∨ (c.norm = true ∧ c.work = [])) → exec (.collComplete c.ring c.tag) s = .next s)

/-- R15, R20, R25, R59, R205, R250, R289, R392-R399, R442: faults and what contains them: a corrected SRAM error is counted; a core fault or a router fault fences its core, and
its cell is lost; a mover gives its moves back; an engine goes out of use; a warden's work goes to another, and without one the device resets.
What it says beyond the rules is the model's choice: log entries 34, 53. -/
def Obligations.FaultsAreContained : Prop :=
  ∀ s : State, s.Calm → (∀ c ∈ s.colls, c.phase ≠ .released) → s.RingsOk →
    (∀ n c unit, s.core? n = some c → c.cpu.st ≠ .fenced →
      exec (.coreFault n 0 unit) s = .next { s with
        cores := s.cores.set n { c with eccCorrected := min (c.eccCorrected + 1) (2 ^ 32 - 1), eccLast := unit % 16 } }) ∧
    (∀ n c, s.core? n = some c → c.cpu.st ≠ .fenced → c.phys < 640 → c.dma.q = [] → c.dma.reqs = [] → c.dma.bufs = [] → c.dma.waiting = [] →
        c.dma.tracked = [] →
      let fences (i : Instr) (code unit : Nat) (router : Bool) : Prop :=
        (∀ j b, c.job = some j → j < s.jobs.length → j < 8 → (s.job j).state = 4 → (s.job j).policy = 2 → (s.job j).caps = [] → (s.job j).snap.stop = false →
          (s.job j).cells[c.cell]? = some b → b.save.state ≠ 1 →
          ∃ t d e, exec i s = .next t ∧ t.core? n = some d ∧ d.cpu.st = .fenced ∧ d.avail = false ∧ d.job = none ∧ d.routerFailed = (c.routerFailed || router) ∧
            (t.job j).cells[c.cell]? = some e ∧ e.lost = true ∧ e.valid = false ∧ (t.job j).state = 4 ∧ t.fenceList = s.fenceList ++ [c.phys] ∧
            t.availGen = (s.availGen + 2) % 2 ^ 32 ∧ (∀ m, m ≠ n → t.core? m = s.core? m)) ∧
        (c.job = none →
          ∃ t d, exec i s = .next t ∧ t.core? n = some d ∧ d.cpu.st = .fenced ∧ d.avail = false ∧ d.routerFailed = (c.routerFailed || router) ∧
            d.cpu.flt = (if c.cpu.flt.valid then c.cpu.flt else ⟨code, 0, 0, if code = 0x20 then unit else 0, true⟩) ∧
            t.fenceList = s.fenceList ++ [c.phys] ∧ t.availGen = (s.availGen + 2) % 2 ^ 32 ∧ (∀ m, m ≠ n → t.core? m = s.core? m) ∧
            Logged s { s with cores := t.cores, availGen := t.availGen, fenceList := t.fenceList } t 2 (dieOf c.phys) c.phys
              [(32, 1, code), (33, 1, if code = 0x20 then unit else 0), (35, 1, 0), (36, 1, 0), (40, 2, n % 2 ^ 16), (42, 2, 0xFFFF), (44, 2, 0)])
      (∀ unit, unit < 16 → fences (.coreFault n 0x20 unit) 0x20 unit false) ∧ (∀ unit, unit < 16 → fences (.coreFault n 0x21 unit) 0x21 unit false) ∧
        fences (.routerFault n) 0x21 0 true) ∧
    (∀ n c, s.core? n = some c → c.cpu.st = .fenced → ∀ i ∈ [Instr.coreFault n 0x20 0, .coreFault n 0 0, .routerFault n], exec i s = .next s) ∧
    (∀ m, m < 4 → s.moverFailed[m]? = some false →
      (∀ x, s.moves = [x] → x.mover = m → (∀ i ∈ x.for_ ++ s.intents, ∀ k, s.blk? i.block = some k → k.tier ≠ State.wantTier i) → ∃ t, exec (.moverFault m) s = .next t ∧ t.moves = [] ∧ t.intents = x.for_ ++ s.intents ∧
        t.moverFailed = s.moverFailed.set m true) ∧
      ((∀ x ∈ s.moves, x.mover ≠ m) → ∃ t, exec (.moverFault m) s = .next t ∧
        Logged s { s with moverFailed := s.moverFailed.set m true } t 6 m m [(32, 1, 0), (33, 1, m), (36, 4, 0)])) ∧
    (∀ n g, n < 4 → s.engines[n]? = some g → g.present = true → g.failed = false → (∀ c ∈ s.colls, n ∉ c.engines) →
      ∃ t, exec (.engineFault 1 n) s = .next t ∧
        Logged s { s with engines := s.engines.set n { g with failed := true } } t 6 (if n < 2 then 4 else 5) (256 + n) [(32, 1, 1), (33, 1, n), (36, 4, 0)]) ∧
    (∀ n, n < 8 → s.digestFailed[n]? = some false →
      ∃ t, exec (.engineFault 2 n) s = .next t ∧
        Logged s { s with digestFailed := s.digestFailed.set n true } t 6 (if n < 4 then 4 else 5) (512 + n) [(32, 1, 2), (33, 1, n), (36, 4, 0)]) ∧
    (∀ n g, n < 2 → s.capturePresent = true → s.capEng[n]? = some g → g.failed = false → (∀ b ∈ s.jobs, b.caps = []) →
      ∃ t, exec (.engineFault 3 n) s = .next t ∧
        Logged s { s with capEng := s.capEng.set n { g with failed := true } } t 6 (4 + n) (768 + n) [(32, 1, 3), (33, 1, n), (36, 4, 0)]) ∧
    (∀ w x, s.wardens[w]? = some x →
      exec (.wardenHeartbeat w) s = .next { s with wardens := s.wardens.set w (if x.failed then x else { x with beat := s.now }) }) ∧
    (∀ w x cause, w < 20 → s.wardens[w]? = some x → x.failed = false → cause < 256 →
      let die := if w < 16 then w / 4 else if w < 18 then 4 else 5
      let pairs : List Nat := if w < 16 then (List.range 4).map (· + w / 4 * 4) else if w < 18 then [16, 17] else [18, 19]
      let u : State := { s with wardens := s.wardens.set w { x with failed := true } }
      ((∃ v ∈ pairs, v ≠ w ∧ ∃ y, s.wardens[v]? = some y ∧ y.failed = false) → 
          (∀ i ∈ (s.moves.flatMap fun m => m.for_) ++ s.intents, ∀ k, s.blk? i.block = some k → k.tier ≠ State.wantTier i) →
        ∃ t, exec (.wardenFault w cause) s = .next t ∧ t.moves = [] ∧ (∀ i ∈ (s.moves.flatMap fun m => m.for_) ++ s.intents, i ∈ t.intents) ∧
          Logged s { u with moves := [], intents := t.intents, reserve := t.reserve, blks := t.blks } t 7 die (if w < 16 then w % 4 else w % 2) [(32, 1, die), (33, 1, if w < 16 then w % 4 else w % 2), (34, 1, cause), (40, 8, x.beat % 2 ^ 64)]) ∧
      ((∀ v ∈ pairs, v ≠ w → ∃ y, s.wardens[v]? = some y ∧ y.failed = true) →
        ∃ t, exec (.wardenFault w cause) s = .next t ∧ ResetFrom u t 4 ∧ t.pins.faultN = false ∧
          AshTook s t 0xF die die [(32, 1, 1), (33, 1, 0xFF), (36, 4, die)]))

/-- R424-R427, R432, R434-R439, R447: the capture slots of a job, armed, cleared, copied and spent; a cell's counter selection; the trace writer; the Ash log's copies in
flash and in its heart view; and the registers that clear as they are read.
What it says beyond the rules is the model's choice: log entries 37, 40, 57. -/
def Obligations.CapturesCountersAndLogs : Prop :=
  ∀ s : State,
    (∀ (h : Hdr) (r : Ring), Ready s h r 2 → s.jobs.length = 8 → h.job < 8 → 1 ≤ (s.job h.job).state → (s.job h.job).state ≤ 6 →
      let j := h.job
      let b := s.job j
      (∀ k e addr raw, s.capturePresent = true → k < 64 → (e < 2 ∨ e = 0xFF) → (∀ c, s.cap? j k = some c → c.phase ≠ .running) → s.fwRead addr 64 = some raw →
        0 < fieldAt raw 8 8 → fieldAt raw 8 8 ≤ 2 ^ 32 → fieldAt raw 16 8 % 64 = 0 → s.region (fieldAt raw 16 8) = .host →
        (fieldAt raw 38 2 = 0xFFFF ∨ fieldAt raw 38 2 < b.cells.length) → s.capWordOk j (fieldAt raw 0 8) = true → s.capWordOk j (fieldAt raw 56 8) = true →
        Ends1 s h r (.captureSet h k e addr) 0x0604 true 0 0 0 0 { s with jobs := s.jobs.set j { b with
          caps := (b.caps.filter fun x => x.slot != k) ++ [⟨k, e, raw, .armed, 0, 0, 0, if e < 2 then e else 0, 0, 0, []⟩] } }) ∧
      (∀ k e addr, s.capturePresent = false → Ends1 s h r (.captureSet h k e addr) 0x0604 true 4 0 0 0 s) ∧
      (∀ k c, k < 64 → s.cap? j k = some c →
        (c.phase ≠ .running → Ends2 s h r (.captureClear h k) 0x0605 true 0 0 0 0 { s with
          jobs := s.jobs.set j { b with caps := b.caps.filter fun x => x.slot != k } }) ∧
        (c.phase = .running → Runs2 s h r (.captureClear h k) 0x0605 true (outRecord s h (.captureClear k)) s)) ∧
      ∀ cell k e c, cell ≠ 0xFFFF → k < 16 → b.cells[cell]? = some c → c.lost = false →
        ∃ u, Ends1 s h r (.counterSelect h cell k e) 0x0603 true 0 0 0 0 u ∧ u = { s with jobs := u.jobs, cores := u.cores } ∧
          (u.job j).sels = (b.sels.filter fun y => !(y.1 == cell && y.2.1 == k)) ++ [(cell, k, e)] ∧
          ∀ n d, s.core? n = some d →
            (¬ (d.job = some j ∧ d.cell = cell) → u.core? n = some d) ∧
            (d.job = some j → d.cell = cell →
              ∃ d', u.core? n = some d' ∧ d'.cpu = d.cpu ∧ d'.obs.sel = d.obs.sel.set k e ∧ d'.obs.cnt.getD k 0 = 0 ∧
                ((d.obs.resetMask = 0 ∨ d.obs.resetCycle ≠ d.cpu.cycle) → ∀ i, i ≠ k → d'.obs.cnt[i]? = d.obs.cnt[i]?))) ∧
    (∀ j k c, j < s.jobs.length → s.cap? j k = some c →
      (∀ e, c.phase = .fired → c.status = 0 → s.capEngineOf c = some e → s.capturesOn e < 4 → (∀ n, c.source = some n → (s.cellTarget j n == .wait) = false) →
        ∃ t d, exec (.captureStart j k e) s = .next t ∧ t = { s with jobs := t.jobs, free := s.free + 1 } ∧ t.cap? j k = some d ∧ d.phase = .running ∧
          d.onEngine = e ∧ d.raw = c.raw) ∧
      (c.phase ≠ .fired → ∀ e, exec (.captureStart j k e) s = .next s) ∧
      (∀ g, s.Calm → s.intents = [] → s.moves = [] → c.phase = .running → s.capEng[c.onEngine]? = some g → (∀ o ∈ s.outs, o.cmd ≠ .captureClear k) →
        ∃ t d, exec (.captureComplete j k) s = .next t ∧ t.cap? j k = some d ∧ d.phase = .spent ∧ t.outs = s.outs ∧
          t.capEng = s.capEng.set c.onEngine { g with done := (g.done + 1) % 2 ^ 48 }) ∧
      (s.Calm → c.phase = .armed ∨ c.phase = .spent → exec (.captureComplete j k) s = .next s)) ∧
    (∀ d n c r q x, s.core? n = some c → c.obs.queue = r :: q → c.obs.run = 0 → dieOf c.phys = d → s.trcs[d]? = some x →
      (x.state = 0 → exec (.traceRecordWrite d n) s = .next { s with cores := s.cores.set n { c with obs := { c.obs with queue := q } } }) ∧
      (x.state = 1 → x.mode = 1 → x.trig = none →
        ∃ t, exec (.traceRecordWrite d n) s = .next t ∧ t = { s with
          cores := s.cores.set n { c with obs := { c.obs with queue := q } }, trcs := s.trcs.set d { x with next := x.next + 1 }
          mem := s.mem.write (State.trcAddr x d x.next) (r.take 12 ++ leBytes 4 x.next ++ r.drop 16), dev := { s.dev with cnt := t.dev.cnt } })) ∧
    (∀ bytes, let q := s.ash.flashed + 1
      let a := flashAsh + 512 * (q % 4096)
      q < s.ash.next → s.ash.mirror.find? (fun r => r.1 == q) = some (q, bytes) →
        exec .ashFlashCopy s = .next { s with
          ash := { s.ash with flashed := q }, flash := ((if s.flashErased a 512 then s else s.flashErase a 512).flashWrite a bytes).flash }) ∧
    (∀ bytes, let q := s.ash.viewed + 1
      q < s.ash.next → s.memReg.mapValid = true → s.ash.mirror.find? (fun r => r.1 == q) = some (q, bytes) →
        ∃ t, exec .ashViewWrite s = .next t ∧ t = { s with ash := { s.ash with viewed := q, oldest := t.ash.oldest }, mem := s.mem.write (State.viewAddr q) bytes } ∧
          (s.ash.oldest = 0 → t.ash.oldest = q)) ∧
    (s.ash.next ≤ s.ash.flashed + 1 → exec .ashFlashCopy s = .next s) ∧
    (s.ash.next ≤ s.ash.viewed + 1 → exec .ashViewWrite s = .next s) ∧
    (∀ n c, n < 1024 → s.core? n = some c → exec (.evtRfRead n) s = .next { s with
      cores := s.cores.set n { c with obs := { c.obs with rf := 0 } }, sent := .value (leBytes 8 c.obs.rf) :: s.sent }) ∧
    ∀ k v, k < 4 → s.dev.rf[k]? = some v →
      exec (.devRfRead k) s = .next { s with dev := { s.dev with rf := s.dev.rf.set k 0 }, sent := .value (leBytes 8 v) :: s.sent }

/-- R402-R409, R412-R415, R417-R421: the snapshot commands, and the events of a snapshot and of a restore: the stop and its drain, the epoch's advance with every mapped block of
the job's snap objects FROZEN, the stop's end and its bound, the images taken one by one, what a buddy keeps, and the images of a restore.
What it says beyond the rules is the model's choice: log entries 30, 33. -/
def Obligations.SnapshotsAndRestores : Prop :=
  ∀ s : State, s.jobs.length = 8 →
    (∀ (h : Hdr) (r : Ring), Ready s h r 2 → h.job < 8 →
      let j := h.job
      let b := s.job j
      let d (p : SnapSrc) : Nat := p.dests % 4
      let rest (p : SnapSrc) (at_ : Option (Nat × Nat × Nat)) (waits : Bool) : Rest := ⟨s.nextUid, p.id, d p, (p.bx, p.bY, p.bz), at_, [], false, 0, false, waits⟩
      (∀ p, b.state ∈ [3, 4, 5, 6] → d p ≠ 0 → (bit (d p) 1 = true → s.nvmeUsable p.ctrl p.ns = true) → s.imagesLeft j = false → b.snap.state ≠ 1 → b.snap.state ≠ 2 →
        ∃ u, Runs2 s h r (.snapshot h p) 0x0301 true (outRecord s h (.snapshot p)) u ∧
          u = { s with jobs := u.jobs, cores := u.cores, reserveKept := true,
                       reserve := if s.reserveKept then s.reserve else min s.reserveSize (s.freeFrames 0) } ∧
          (∀ k, k ≠ j → u.job k = s.job k) ∧ (u.job j).state = b.state ∧
          (let n := (u.job j).snap
          n.id = p.id ∧ n.state = 1 ∧ n.stop = true ∧ n.drained = false ∧ n.dests = d p ∧ n.start = s.now ∧ n.uid = some s.nextUid ∧ n.epoch = b.snap.epoch ∧
            n.taken = 0 ∧ n.digests = []) ∧
          ∀ n c, s.core? n = some c →
            u.core? n = some (if b.state ≠ 5 ∧ c.job = some j ∧ c.cpu.st ≠ .fenced ∧ c.cpu.st ≠ .saving then
              { c with withheld := true, dma := { c.dma with closed := false } } else c)) ∧
      (∀ p, b.state = 5 → (d p = 1 ∨ (d p = 2 ∧ s.nvmeUsable p.ctrl p.ns = true)) → b.rest = none →
        Runs2 s h r (.restore h p) 0x0302 true (outRecord s h (.restore p)) { s with jobs := s.jobs.set j { b with rest := some (rest p none false) } } ∧
        ∀ x y z, (∀ k < 8, k ≠ j → (s.job k).state = 0) → x < s.fab.dx → y < s.fab.dy → z < s.fab.dz →
          ((s.fab.x, s.fab.y, s.fab.z) = (x, y, z) →
            Runs2 s h r (.adopt h p x y z) 0x0303 true (outRecord s h (.adopt p x y z))
              { s with jobs := s.jobs.set j { b with rest := some (rest p (some (x, y, z)) false) } }) ∧
          ((s.fab.x, s.fab.y, s.fab.z) ≠ (x, y, z) →
            ∃ u, Runs2 s h r (.adopt h p x y z) 0x0303 true (outRecord s h (.adopt p x y z)) u ∧
              u = { s with jobs := s.jobs.set j { b with rest := some (rest p (some (x, y, z)) true) }, fab := { s.fab with x, y, z }, links := u.links, time := u.time,
                           flashOps := s.flashOps ++ [.adopt s.nextUid] })) ∧
      (1 ≤ b.state → b.state ≤ 6 →
        (∀ n, n ≤ 1000 → b.snap.lastBuddy.isSome = true →
          Ends1 s h r (.boundedLoss h n) 0x0304 true 0 0 0 0 { s with jobs := s.jobs.set j { b with snap := { b.snap with bounded := n } } }) ∧
        ∀ buf, Query s h r (.snapQuery h buf) 0x0905 true buf (s.snapRecord j) b.snap.epoch s)) ∧
    (∀ j, j < 8 → s.Calm → s.RingsOk → (∀ c ∈ s.colls, c.phase ≠ .deferred) →
      let b := s.job j
      let n := b.snap
      let setSnap (m : Snap) : State := { s with jobs := s.jobs.set j { b with snap := m } }
      let fails (i : Instr) : Prop := b.preemptHeld = false → ∀ u, n.uid = some u →
        ∃ t, exec i s = .next t ∧ (t.job j).snap.state = 4 ∧ (t.job j).snap.stop = false ∧ t.outs = s.outs.filter (fun o => o.uid != u)
      (n.stop = true → n.state = 1 → n.drained = false → n.start + 2000000 ≤ s.now →
        (s.drainDone j = true → b.state = 5 → exec (.drainCheck j) s = .next (setSnap { n with drained := true })) ∧
        (s.drainDone j = true → b.state ≠ 5 → ∃ t, exec (.drainCheck j) s = .next t ∧ t = { s with jobs := (setSnap { n with drained := true }).jobs, cores := t.cores } ∧
          ∀ m c, s.core? m = some c → c.job = some j → c.cpu.st ≠ .fenced → c.cpu.st ≠ .saving →
            t.core? m = some { c with withheld := true, dma := { c.dma with closed := true } }) ∧
        (s.drainDone j = false → fails (.drainCheck j))) ∧
      (n.stop = false → exec (.drainCheck j) s = .next s ∧ exec (.epochAdvance j) s = .next s ∧ exec (.stopEnd j) s = .next s ∧ exec (.stopBound j) s = .next s) ∧
      (n.stop = true → n.state = 1 → n.drained = true → (b.state = 5 ∨ s.allQuiet j = true) → s.moves = [] → 40 * b.cells.length ≤ s.freeFrames 0 + s.reserve →
        ∃ t, exec (.epochAdvance j) s = .next t ∧ (t.job j).snap.epoch = (n.epoch + 1) % 2 ^ 32 ∧ (t.job j).snap.state = 2 ∧ (t.job j).snap.stop = true ∧
          (t.job j).snap.todo.length = 40 * b.cells.length + (s.snapBlocks j).length ∧ t.mem = s.mem ∧ t.outs = s.outs ∧ t.now = s.now ∧
          ∀ i ∈ s.snapBlocks j, ∃ k, t.blk? i = some k ∧ k.state = .frozen ∧ k.image.isSome = true) ∧
      (let ends (i : Instr) : Prop := b.preemptHeld = false → b.state = 4 →
        ∃ t, exec i s = .next t ∧ (t.job j).snap.stop = false ∧ (t.job j).snap.state = 2 ∧ (t.job j).snap.endTime = s.now ∧ (t.job j).state = 4 ∧ t.outs = s.outs ∧
          ∀ m c, s.core? m = some c → c.job = some j → c.cpu.st ≠ .fenced → c.cpu.st ≠ .saving →
            ∃ d, t.core? m = some d ∧ d.withheld = false ∧ d.dma.closed = false ∧ d.job = some j
      n.stop = true →
        (n.state = 2 → s.reserveSize ≤ s.reserve → ends (.stopEnd j)) ∧ (n.state = 2 → s.reserve < s.reserveSize → exec (.stopEnd j) s = .next s) ∧
        (n.start + (if s.fuses.tk9620 then 20000000 else 25000000) ≤ s.now →
          (n.state = 2 → ends (.stopBound j)) ∧ (n.state = 1 → fails (.stopBound j)))) ∧
      (n.state = 2 → s.digestFailed.all id = false →
        (∀ c f m rest, n.todo = .frame c f m :: rest → rest ≠ [] →
          ∃ t, exec (.imageTaken j true true false) s = .next t ∧ (t.job j).snap.todo = rest ∧ (t.job j).snap.taken = n.taken + 1 ∧ t.outs = s.outs ∧
            (t.job j).snap.digests = n.digests ++ [Config.sha384 (m.read 0 65536 ++ leBytes 8 (0xFFFF000000000000 + 40 * c + f) ++ leBytes 4 n.id)]) ∧
        (∀ i k m rest, n.todo = .block i :: rest → rest ≠ [] → s.blk? i = some k → k.state = .frozen → k.image = some m → m.data = none → k.poisoned = false →
          s.moveOf i = none → s.keptImage j i = none →
          ∃ t, exec (.imageTaken j true true false) s = .next t ∧ (t.job j).snap.todo = rest ∧ (t.job j).snap.taken = n.taken + 1 ∧ t.outs = s.outs ∧ t.mem = s.mem ∧
            t.blk? i = some { k with image := none, state := if k.tier = 0 then .heart else .base } ∧
            (t.job j).snap.digests = n.digests ++
              [Config.sha384 (s.mem.read (State.blkAddr i) 65536 ++ leBytes 8 (State.blkAddr i) ++ leBytes 4 n.id)]) ∧
        (bit n.dests 1 = true → n.nvmeFailed = false →
          (n.todo ≠ [] → exec (.nvmeCompletion j true) s = .next s ∧
            ∀ i ∈ [Instr.nvmeCompletion j false, .nvmeTimeout j], exec i s = .next (setSnap { n with nvmeFailed := true })) ∧
          (n.todo = [] → n.taken = n.total → ∀ u, n.uid = some u →
            (∃ t, exec (.nvmeCompletion j true) s = .next t ∧ t.outs = s.outs.filter (fun o => o.uid != u) ∧
              (t.job j).snap.state = if n.imageFailed || (bit n.dests 0 && n.buddyFailed) then 4 else 3) ∧
            ∀ i ∈ [Instr.nvmeCompletion j false, .nvmeTimeout j],
              ∃ t, exec i s = .next t ∧ t.outs = s.outs.filter (fun o => o.uid != u) ∧ (t.job j).snap.state = 4))) ∧
      ∀ q, b.rest = some q →
        (s.adoptReady q = false → ∀ ok data, exec (.restoreImage j ok data) s = .next s) ∧
        (s.adoptReady q = true →
          (q.started = false → ∀ ok, ∃ t, exec (.restoreImage j ok []) s = .next t ∧ (t.job j).rest = none ∧ t.outs = s.outs.filter (fun o => o.uid != q.uid)) ∧
          (q.started = true → s.digestFailed.all id = false →
            (q.next + 1 < fieldAt q.manifest 48 8 → ∀ data, ∃ t, exec (.restoreImage j true data) s = .next t ∧ t = { s with
              mem := s.mem.write (State.imagePlace j q.manifest q.next) (bytesAt data 0 65536)
              jobs := s.jobs.set j { b with rest := some { q with next := q.next + 1 } }
              dev := { s.dev with cnt := t.dev.cnt } }) ∧
            (fieldAt q.manifest 48 8 ≤ q.next + 1 → q.bad = false → ∀ data,
              ∃ t, exec (.restoreImage j true data) s = .next t ∧ (t.job j).rest = none ∧ (t.job j).snap.epoch = fieldAt q.manifest 12 4 ∧
                t.outs = s.outs.filter (fun o => o.uid != q.uid))))) ∧
    ∀ x y z tag (data : List Byte), let mine (g : StoreGen) : Bool := g.x == x && g.y == y && g.z == z && g.tag == tag && !g.complete
      (s.freeFrames 1 ≠ 0 → s.store.any mine = false → ∀ ok,
        exec (.buddyImageReceive x y z tag false ok data) s = .next { s with store := s.store ++ [⟨x, y, z, tag, false, [data], []⟩] }) ∧
      (s.freeFrames 1 ≠ 0 → s.store.any mine = true → ∀ ok,
        exec (.buddyImageReceive x y z tag false ok data) s = .next { s with store := s.store.map fun g => if mine g then { g with images := g.images ++ [data] } else g }) ∧
      (s.freeFrames 1 = 0 → ∀ ok, exec (.buddyImageReceive x y z tag false ok data) s = .next { s with store := s.store.filter fun g => !mine g }) ∧
      (∀ g, s.store.find? mine = some g →
        exec (.buddyImageReceive x y z tag true true data) s = .next { s with
          store := (s.store.filter fun g => !(g.x == x && g.y == y && g.z == z && g.tag == tag)) ++ [{ g with complete := true, manifest := data }] } ∧
        exec (.buddyImageReceive x y z tag true false data) s = .next { s with store := s.store.filter fun g => !mine g })

/-- Every step keeps every byte store of the device in its canonical form: scratch, tile register file, accumulator buffer, lead data memory and
program SRAM of every core, the tiers with the host region and the heart window, and the flash. (The form is the model's own: log entry 5.) -/
def Obligations.StepKeepsStoresCanonical : Prop := ∀ s t : State, s.Canonical → step s = .next t → t.Canonical

namespace Sys2Proof.Claims

open Sys2Proof.Machine

/-- Registers with their Reset values for a TK9640 of stepping 1 (R34, R234, R323, R343, R447, R468, R491): the address in register space, and
the value that a read returns. -/
def resetRegs : List (Nat × Nat) :=
  [(0x1000, 0x4B54 + 0x40 * 2 ^ 16 + 2 ^ 24), (0x1008, 0x7FFF), (0x1010, 0xFFFFFFFFF), (0x1018, 0xFFFF),
   (0x1020, 576 + 144 * 2 ^ 16 + 144 * 2 ^ 24 + 144 * 2 ^ 32 + 144 * 2 ^ 40 + 16 * 2 ^ 48), (0x1028, 589824), (0x1030, 0), (0x1038, 0),
   (0x10A8, 40 + 12 * 2 ^ 8 + 6 * 2 ^ 16 + 4 * 2 ^ 24 + 2 * 2 ^ 32), (0x10B0, 16 + 12 * 2 ^ 8 + 8 * 2 ^ 16 + 24 * 2 ^ 24 + 4 * 2 ^ 32),
   (0x2000, 0), (0x2008, 0), (0x2010, 0), (0x2018, 0), (0x2020, 0), (0x2028, 0), (0x2030, 0), (0x2040, 1), (0x20B8, 1), (0x20C0, 48 * 2 ^ 8),
   (0x2118, 48 * 2 ^ 8), (0x2000000, 0), (0x2000008, 0x7F * 2 ^ 7 + 63 * 2 ^ 14), (0x2000010, 0), (0x2000018, 0), (0x2000020, 0),
   (0x2000028, 0), (0x2180000, 0), (0x2180008, 0), (0x2180010, 48 + 16 * 2 ^ 8), (0x2180018, 0), (0x2180020, 0), (0x2302000, 0),
   (0x2303100, 0), (0x2400000, 1500 + 1500 * 2 ^ 16), (0x2400008, 0), (0x2400028, 0), (0x2400030, 0), (0x2500000, 0), (0x2500008, 0),
   (0x2500010, 0), (0x2500018, 0), (0x2500020, 0)]

end Sys2Proof.Claims

/-- What reset leaves: stores in canonical form, no command waiting, no ring, no poison, the directory empty and every job context EMPTY (R229,
R349, R472); 144 cores of each die under LCNs in rising physical order, every one available, IDLE and of no job (R18, R68); every link in
DISABLED with group 7 and nothing counted, every engine present and idle; and every register of `resetRegs` at its Reset value. That the part
is a TK9640 of stepping 1, and that core stores and registers of a core hold zeros, is the model's choice (log entries 5, 7, 15). -/
def Obligations.ResetValues : Prop :=
  State.reset.Canonical ∧ State.reset.pending = [] ∧ State.reset.rings = [] ∧ State.reset.poison = [] ∧ State.reset.blks = [] ∧
    State.reset.objs = [] ∧ State.reset.jobs = List.replicate 8 Job.empty ∧
    State.reset.cores.length = 576 ∧ (State.reset.cores.map fun c => c.phys).Pairwise (· < ·) ∧
    (∀ d < 4, State.reset.dieCount d = 144) ∧
    (∀ c ∈ State.reset.cores, c.avail = true ∧ c.job = none ∧ c.cpu = Cpu.reset c.lead ∧ c.dma = Dma.reset ∧ c.obs = CoreObs.reset) ∧
    (∀ k < 9, State.reset.regVal (0x1040 + 8 * k) = 2 ^ 64 - 1) ∧
    (∀ n < 36, State.reset.links[n]? = some (Link.reset true) ∧ State.reset.regVal (0x2100000 + 0x1000 * n) = 2 ^ 16 ∧
      State.reset.regVal (0x2100000 + 0x1000 * n + 8) = 7) ∧
    (∀ e < 4, State.reset.regVal (0x2200000 + 0x1000 * e) = 1 ∧ State.reset.regVal (0x2200000 + 0x1000 * e + 8) = 0) ∧
    ∀ x ∈ Claims.resetRegs, State.reset.regVal x.1 = x.2
end

