-- ==== Sys2Proof/Laws/Clock.lean ====
section
/-! SUPPORT. What the clock of a core does when little is on its way: the shared lemmas behind every statement about an issued bundle. -/

namespace Sys2Proof.Machine

namespace Cpu

/-- Reading a register with nothing in flight gives what it holds (R104). -/
@[simp] theorem early_nil {α : Type} (sd p : Nat) (cur : α) : early sd p cur [] = cur := by
  simp [early, pick]

@[simp] theorem rdS_quiet (sd k : Nat) (c : Cpu) (n : Nat) (h : c.pend = []) : rdS sd k c n = c.sreg n := by
  simp [rdS, h]

@[simp] theorem rdC_quiet (sd k : Nat) (c : Cpu) (n : Nat) (h : c.pend = []) : rdC sd k c n = c.lcs.getD n 0 := by
  simp [rdC, h]

@[simp] theorem rdK_quiet (sd k : Nat) (c : Cpu) (n : Nat) (h : c.pend = []) : rdK sd k c n = c.ks.getD n false := by
  simp [rdK, h]

/-- No SWAP takes effect when the pass queue is empty (R83). -/
theorem runSwap_nil (x : Nat) (c : Cpu) (h : c.array.q = []) : runSwap x c = c := by
  simp [runSwap, swapAt, firstSwap, h]

/-- The feeder queues stand still when no pass is in the array (R90). -/
theorem fillTo_nil (sd x : Nat) (c : Cpu) (h : c.array.run = []) : fillTo sd x c = c := by
  simp [fillTo, h]

/-- The array registers no wait when the pass queue is empty (R135). -/
theorem armWait_nil (x : Nat) (c : Cpu) (h : c.array.q = []) : armWait x c = c := by
  simp [armWait, h]

/-- With no semaphore update on its way none lands (R189). -/
theorem landSems_nil (sd x : Nat) (c : Cpu) (h : c.sups = []) : landSems sd x c = c := by
  cases c; simp_all [landSems]

/-- A cycle with nothing to evaluate ends without a change (R195). -/
theorem endCycle_nil (c : Cpu) (h : c.evals = []) : endCycle c = c := by
  cases c; simp_all [endCycle]

/-- The execution state with its clock at a later cycle. -/
theorem clockAt_later (x : Nat) (c : Cpu) (h : c.cycle < x) : clockAt x c = { c with cycle := x, tstWas := [], dmaWas := [], leadWas := [] } := by
  simp [clockAt, h]

@[simp] theorem clockAt_array (x : Nat) (c : Cpu) : (clockAt x c).array = c.array := by unfold clockAt; split <;> rfl
@[simp] theorem clockAt_sups (x : Nat) (c : Cpu) : (clockAt x c).sups = c.sups := by unfold clockAt; split <;> rfl
@[simp] theorem clockAt_pend (x : Nat) (c : Cpu) : (clockAt x c).pend = c.pend := by unfold clockAt; split <;> rfl
@[simp] theorem clockAt_moves (x : Nat) (c : Cpu) : (clockAt x c).moves = c.moves := by unfold clockAt; split <;> rfl

/-- The clock moves on over cycles in which nothing is due. -/
theorem settle_idle (sd x : Nat) (c : Cpu) (hq : c.array.q = []) (hr : c.array.run = []) (hs : c.sups = []) (hp : ∀ p ∈ c.pend, x < p.due)
    (hm : ∀ m ∈ c.moves, x < m.1) : settle sd x c = clockAt x c := by
  have e1 : c.pend.filter (fun p => decide (p.due ≤ x)) = [] := by
    rw [List.filter_eq_nil_iff]; intro p h; have := hp p h; simp; omega
  have e2 : c.pend.filter (fun p => decide (x < p.due)) = c.pend := by
    rw [List.filter_eq_self]; intro p h; simpa using hp p h
  have e3 : c.moves.filter (fun m => decide (x < m.1)) = c.moves := by
    rw [List.filter_eq_self]; intro p h; simpa using hm p h
  unfold settle
  rw [runSwap_nil x (clockAt x c) (by simpa using hq), fillTo_nil sd x (clockAt x c) (by simpa using hr)]
  have l : landDue sd x (clockAt x c) = clockAt x c := by
    simp only [landDue, clockAt_pend, clockAt_moves, e1, e2, e3]
    simp only [List.map_nil, List.filter_nil, List.append_nil, landAll]
    unfold clockAt; split <;> rfl
  rw [l, landSems_nil sd x (clockAt x c) (by simpa using hs)]

/-- One result due in the next cycle lands there (R64, R106). -/
theorem settle_one (sd x : Nat) (c : Cpu) (a : Act) (hq : c.array.q = []) (hr : c.array.run = []) (hp : c.pend = [⟨x, a⟩]) (hm : c.moves = [])
    (hu : (landOne sd x 0 [] { clockAt x c with pend := [], moves := [] } a).sups = []) :
    settle sd x c = landOne sd x 0 [] { clockAt x c with pend := [], moves := [] } a := by
  unfold settle
  rw [runSwap_nil x (clockAt x c) (by simpa using hq), fillTo_nil sd x (clockAt x c) (by simpa using hr)]
  have l : landDue sd x (clockAt x c) = landOne sd x 0 [] { clockAt x c with pend := [], moves := [] } a := by
    simp only [landDue, clockAt_pend, clockAt_moves, hp, hm]
    cases h : isRead a <;> simp [landAll, h]
  rw [l, landSems_nil _ _ _ hu]

/-- The clock goes to a later cycle from one with nothing to evaluate. -/
theorem moveTo_settle (sd x : Nat) (c : Cpu) (h : c.evals = []) : moveTo sd x c = settle sd x c := by
  unfold moveTo; rw [endCycle_nil c h, ite_self]

/-- With nothing due before cycle `x` the clock goes there at once. -/
theorem runTo_moveTo (sd x : Nat) (c : Cpu) (hq : c.array.q = []) (hs : ∀ u ∈ c.sups, x ≤ u.land) (hp : ∀ p ∈ c.pend, x ≤ p.due) :
    runTo sd x c = moveTo sd x c := by
  have key : ∀ l : List Nat, (∀ d ∈ l, x ≤ d) → ∀ d, minOf l = some d → x ≤ d := by
    intro l
    induction l with
    | nil => intro _ d h; cases h
    | cons a l ih =>
      intro h d e
      have ha := h a List.mem_cons_self
      have hl := ih fun d hd => h d (List.mem_cons_of_mem _ hd)
      simp only [minOf] at e
      split at e
      · next y hy => cases e; exact Nat.le_min.mpr ⟨ha, hl y hy⟩
      · cases e; exact ha
  have nd : ∀ d, c.nextDue = some d → x ≤ d := by
    intro d h
    refine key _ ?_ d h
    simp only [swapAt, firstSwap, hq, List.append_nil]
    intro e he
    rcases List.mem_append.mp he with he | he
    · obtain ⟨p, hp', rfl⟩ := List.mem_map.mp he
      exact hp p hp'
    · obtain ⟨p, hp', rfl⟩ := List.mem_map.mp he
      exact hs p hp'
  unfold runTo
  generalize 2 * (c.pend.length + c.sups.length + c.array.q.length) + 8 = f
  cases f with
  | zero => rfl
  | succ f =>
    simp only [advance]
    split
    · next d h => rw [if_neg (Nat.not_lt.mpr (nd d h))]
    · rfl

/-- The same, from a cycle with nothing to evaluate. -/
theorem runTo_settle (sd x : Nat) (c : Cpu) (hq : c.array.q = []) (hs : c.sups = []) (hv : c.evals = []) (hp : ∀ p ∈ c.pend, x ≤ p.due) :
    runTo sd x c = settle sd x c := by
  rw [runTo_moveTo sd x c hq (by rw [hs]; simp) hp, moveTo_settle sd x c hv]

end Cpu

end Sys2Proof.Machine
end

