-- ==== Sys2Proof/Laws/Issue.lean ====
section
/-! SUPPORT. The issue of a bundle, once: what it leaves alone in the device, and the execution state after a bundle whose result lands in the
next cycle. -/

namespace Sys2Proof.Machine

/-- An element of a list after `modAt`. -/
theorem modAt_getElem? {α : Type} (l : List α) (i j : Nat) (f : α → α) :
    (modAt l i f)[j]? = if i = j then l[j]?.map f else l[j]? := by
  induction l generalizing i j with
  | nil => simp [modAt]
  | cons x xs ih =>
    cases i <;> cases j <;> simp [modAt, ih]

/-- `modAt` keeps the length. -/
@[simp] theorem modAt_length {α : Type} (l : List α) (i : Nat) (f : α → α) : (modAt l i f).length = l.length := by
  induction l generalizing i with
  | nil => rfl
  | cons x xs ih => cases i <;> simp [modAt, ih]

namespace State

/-- The core `n` after a change of core `n`. -/
theorem core?_modCore (s : State) (n m : Nat) (f : Core → Core) : (s.modCore n f).core? m = if n = m then (s.core? m).map f else s.core? m := by
  simp [core?, modCore, modAt_getElem?]

end State

theorem CountsOnly.refl (c : Core) : CountsOnly c c := ⟨c.obs.cnt, rfl⟩

theorem CountsOnly.trans {a b c : Core} (h : CountsOnly a b) (g : CountsOnly b c) : CountsOnly a c := by
  obtain ⟨l, rfl⟩ := h; obtain ⟨m, rfl⟩ := g; exact ⟨m, rfl⟩

/-- Counting on a core changes its event counters only (R423). -/
theorem countsOnly_count (code n : Nat) {c d : Core} (h : CountsOnly c d) : CountsOnly c (d.count code n) := by
  refine h.trans ?_
  unfold Core.count; split
  · exact CountsOnly.refl d
  · exact ⟨_, rfl⟩

/-- Running a function on the execution state of a core changes that and the event counters (R423). -/
theorem countsOnly_runCpu (sd k : Nat) (f : Cpu → Cpu) (c : Core) : CountsOnly { c with cpu := f c.cpu } (c.runCpu sd k f) := by
  unfold Core.runCpu
  simp only []
  repeat apply countsOnly_count
  exact CountsOnly.refl _

/-- A change of one core changes nothing else. -/
theorem onlyCore_modCore (s : State) (n : Nat) (f : Core → Core) : OnlyCore n s (s.modCore n f) := by
  refine ⟨rfl, by simp [State.modCore], fun m hm => ?_⟩
  rw [State.core?_modCore, if_neg (Ne.symm hm)]

theorem OnlyCore.trans {n : Nat} {a b c : State} (h : OnlyCore n a b) (g : OnlyCore n b c) : OnlyCore n a c := by
  refine ⟨?_, g.2.1.trans h.2.1, fun m hm => (g.2.2 m hm).trans (h.2.2 m hm)⟩
  rw [g.1]; rw [h.1]

theorem onlyCore_seeded (n : Nat) (s : State) : OnlyCore n s s.seeded := ⟨rfl, rfl, fun _ _ => rfl⟩

/-- The issue of a bundle without a MARK, a DMAI or a fault: the core's execution state is what the issue gives, its counters count, and nothing
else in the device changes (R39). -/
theorem issueBundle_only (s : State) (n : Nat) (c : Core) (b : Bundle) (o : IssueOut) (hI : Issuing s n c)
    (ho : c.cpu.issue ⟨s.free, s.now, c.dma.q.length < 64⟩ b = o) (hm : o.mark = none) (hd : o.dmai = none) (hf : o.faulted = false) :
    ∃ d, (s.issueBundle n (some b)).core? n = some d ∧ CountsOnly { c with cpu := o.cpu } d ∧
      OnlyCore n s (s.issueBundle n (some b)) := by
  obtain ⟨hc, hw, hi⟩ := hI
  have go : (c.withheld || !c.cpu.issues) = false := by rw [hw, hi]; rfl
  unfold State.issueBundle
  simp only [hc, go, Option.getD_some, ho, hm, hd, hf, Bool.false_eq_true, if_false]
  have hr : s.seeded.core? n = some c := hc
  simp only [State.runCore, hr]
  have only := ((onlyCore_seeded n s).trans (onlyCore_modCore s.seeded n (Core.runCpu s.seeded.free (s.seeded.skipLevel (dieOf c.phys)) fun _ => o.cpu)))
  refine ⟨?w, ?a, ?b, only.trans (onlyCore_modCore _ _ _)⟩
  case a => rw [State.core?_modCore, if_pos rfl, State.core?_modCore, if_pos rfl, hr]; rfl
  case b =>
    exact countsOnly_count _ _ (countsOnly_count _ _ (countsOnly_count _ _ (countsOnly_count _ _ (countsOnly_runCpu _ _ (fun _ => o.cpu) c))))

/-- A bundle that holds one operation of the control slot and does not fault runs that operation and moves the program counter (R39, R104). -/
theorem issue_ctl (x : IssueIn) (c : Cpu) (op : CtlOp) (hi : c.issues = true) (hf : Cpu.ctlFault c op = 0) :
    c.issue x { Bundle.nop with ctl := op } =
      { cpu := Cpu.runTo x.sd (c.cycle + 1) (Cpu.nextPc (Cpu.branchOf x.sd c op) (Cpu.runCtl x c op c))
        mark := match op with
          | .mark sa id => some (id, (Cpu.rdS x.sd 9 c sa).toNat % 2 ^ 32, c.pc)
          | _ => none
        dmai := match op with
          | .dmai _ sa =>
            if x.room then
              some ((c.viewScr x.sd (c.issueTag 21)).readWrap scratchBytes (((Cpu.rdS x.sd 9 c sa).toNat % scratchBytes) / 64 * 64) 64)
            else none
          | _ => none
        faulted := false } := by
  have nf : Cpu.bundleFault x.sd c { Bundle.nop with ctl := op } = none := by
    simp [Cpu.bundleFault, Bundle.nop, Cpu.movFault, Cpu.vecFault, Cpu.matFault, hf]
  unfold Cpu.issue
  rw [hi]
  simp only [Bool.not_true, Bool.false_eq_true, if_false, nf]
  simp only [Bundle.nop, Cpu.runMov, Cpu.moveRows, Cpu.startMove, Cpu.runMat, Cpu.runVec]
  cases op <;> rfl

/-- A bundle of a quiet core whose control operation has its result in the next cycle: the result lands, the program counter moves on, and nothing
else changes (R39, R64, R104). -/
theorem issue_ctl_next (x : IssueIn) (c : Cpu) (op : CtlOp) (a : Act) (hi : c.issues = true) (hf : Cpu.ctlFault c op = 0) (hq : c.Quiet)
    (hr : Cpu.runCtl x c op c = Cpu.later (c.cycle + 1) a c)
    (hs : (Cpu.landOne x.sd (c.cycle + 1) 0 [] (c.past (Cpu.branchOf x.sd c op)) a).sups = []) :
    (c.issue x { Bundle.nop with ctl := op }).cpu = Cpu.landOne x.sd (c.cycle + 1) 0 [] (c.past (Cpu.branchOf x.sd c op)) a := by
  obtain ⟨h1, h2, h3, h4, h5, h6⟩ := hq
  rw [issue_ctl x c op hi hf]
  simp only [hr]
  have p : (Cpu.nextPc (Cpu.branchOf x.sd c op) (Cpu.later (c.cycle + 1) a c)).pend = [⟨c.cycle + 1, a⟩] := by
    simp [Cpu.nextPc, Cpu.later, h1, Cpu.insertPend]
  have e : { Cpu.clockAt (c.cycle + 1) (Cpu.nextPc (Cpu.branchOf x.sd c op) (Cpu.later (c.cycle + 1) a c)) with pend := [], moves := [] } =
      c.past (Cpu.branchOf x.sd c op) := by
    rw [Cpu.clockAt_later _ _ (by simp [Cpu.nextPc, Cpu.later])]
    simp only [Cpu.nextPc, Cpu.later, Cpu.past]; rw [h1, h2]
  rw [← e] at hs ⊢
  exact (Cpu.runTo_settle x.sd (c.cycle + 1) (Cpu.nextPc _ (Cpu.later (c.cycle + 1) a c)) h4 h3 h6 (by rw [p]; simp)).trans
    (Cpu.settle_one x.sd (c.cycle + 1) (Cpu.nextPc _ (Cpu.later (c.cycle + 1) a c)) a h4 h5 p h2 hs)

end Sys2Proof.Machine
end

