-- ==== Sys2Proof/Laws/Issues.lean ====
section
/-! SUPPORT. How a statement `IssuesTo` about one command of a core is shown: from the bundle that the command issues, its control
operation, and what falls due by the next cycle. -/

namespace Sys2Proof.Machine

/-- What `IssuesTo` asks of a command that issues a bundle without a MARK or a DMAI, and without a fault (R39, R107). -/
theorem IssuesTo.of_bundle (s : State) (n : Nat) (c : Core) (i : Instr) (b : Bundle) (u : Cpu) (hI : Issuing s n c)
    (he : exec i s = .next (s.issueBundle n (some b)))
    (hm : ∀ sa id, b.ctl ≠ .mark sa id) (hd : ∀ k sa, b.ctl ≠ .dmai k sa)
    (hf : Cpu.bundleFault s.free c.cpu b = none)
    (hu : Cpu.runTo s.free (c.cpu.cycle + 1) (Cpu.nextPc (Cpu.branchOf s.free c.cpu b.ctl)
      (Cpu.runCtl ⟨s.free, s.now, decide (c.dma.q.length < 64)⟩ c.cpu b.ctl (Cpu.runVec s.free c.cpu b.vec (Cpu.runMat s.free c.cpu b.mat (Cpu.runMov s.free c.cpu b.mov c.cpu))))) = u) :
    IssuesTo s n c i u := by
  obtain ⟨d, h1, h2, h3⟩ := issueBundle_only s n c b _ hI rfl
    (by unfold Cpu.issue; simp only [hI.2.2, hf]; cases hb : b.ctl <;> simp_all)
    (by unfold Cpu.issue; simp only [hI.2.2, hf]; cases hb : b.ctl <;> simp_all)
    (by unfold Cpu.issue; simp [hI.2.2, hf])
  refine ⟨_, d, he, h1, ?_, h3⟩
  have : (c.cpu.issue ⟨s.free, s.now, decide (c.dma.q.length < 64)⟩ b).cpu = u := by
    rw [← hu]; unfold Cpu.issue; simp [hI.2.2, hf]
  rwa [this] at h2

/-- The same of a command that issues one control operation (R101, R110). -/
theorem IssuesTo.ctl {s : State} {n : Nat} {c : Core} {i : Instr} {op : CtlOp} {u : Cpu} (hI : Issuing s n c)
    (he : exec i s = .next (s.issueCtl n op)) (hf : Cpu.ctlFault c.cpu op = 0)
    (hm : ∀ sa id, op ≠ .mark sa id) (hd : ∀ k sa, op ≠ .dmai k sa)
    (hu : Cpu.runTo s.free (c.cpu.cycle + 1) (Cpu.nextPc (Cpu.branchOf s.free c.cpu op) (Cpu.runCtl ⟨s.free, s.now, decide (c.dma.q.length < 64)⟩ c.cpu op c.cpu)) = u) :
    IssuesTo s n c i u :=
  .of_bundle s n c i { Bundle.nop with ctl := op } u hI he hm hd
    (by simp [Cpu.bundleFault, Bundle.nop, Cpu.movFault, Cpu.vecFault, Cpu.matFault, hf])
    (by simpa [Bundle.nop, Cpu.runMov, Cpu.moveRows, Cpu.startMove, Cpu.runMat, Cpu.runVec] using hu)

/-- With nothing on its way the clock just moves on. -/
theorem Cpu.runTo_idle (sd x : Nat) (c : Cpu) (hq : c.array.q = []) (hr : c.array.run = []) (hs : c.sups = []) (hv : c.evals = [])
    (hp : ∀ p ∈ c.pend, x < p.due) (hm : ∀ m ∈ c.moves, x < m.1) : runTo sd x c = clockAt x c := by
  rw [runTo_settle sd x c hq hs hv (fun p h => Nat.le_of_lt (hp p h)), settle_idle sd x c hq hr hs hp hm]

/-- One result falls due, of a kind that touches neither the array nor the semaphores: it lands (R64, R106). -/
theorem Cpu.runTo_one (sd x : Nat) (c : Cpu) (a : Act) (hq : c.array.q = []) (hr : c.array.run = []) (hs : c.sups = []) (hv : c.evals = [])
    (hp : c.pend = [⟨x, a⟩]) (hm : c.moves = []) (hu : (landOne sd x 0 [] { clockAt x c with pend := [], moves := [] } a).sups = []) :
    runTo sd x c = landOne sd x 0 [] { clockAt x c with pend := [], moves := [] } a := by
  rw [runTo_settle sd x c hq hs hv (by rw [hp]; simp), settle_one sd x c a hq hr hp hm hu]

/-- A control operation with one result of the next cycle, on a quiet core. -/
theorem IssuesTo.ctlResult {s : State} {n : Nat} {c : Core} {i : Instr} (op : CtlOp) (a : Act) {u : Cpu} (hI : Issuing s n c) (hq : c.cpu.Quiet)
    (he : exec i s = .next (s.issueCtl n op)) (hf : Cpu.ctlFault c.cpu op = 0)
    (hm : ∀ sa id, op ≠ .mark sa id) (hd : ∀ k sa, op ≠ .dmai k sa)
    (hr : Cpu.runCtl ⟨s.free, s.now, decide (c.dma.q.length < 64)⟩ c.cpu op c.cpu = Cpu.later (c.cpu.cycle + 1) a c.cpu)
    (hu : Cpu.landOne s.free (c.cpu.cycle + 1) 0 [] (c.cpu.past (Cpu.branchOf s.free c.cpu op)) a = u) (h2 : u.sups = []) :
    IssuesTo s n c i u := by
  refine .ctl hI he hf hm hd ?_
  rw [hr]
  obtain ⟨q1, q2, q3, q4, q5, q6⟩ := hq
  have e : { Cpu.clockAt (c.cpu.cycle + 1) (Cpu.nextPc (Cpu.branchOf s.free c.cpu op) (Cpu.later (c.cpu.cycle + 1) a c.cpu)) with pend := [], moves := [] } =
      c.cpu.past (Cpu.branchOf s.free c.cpu op) := by
    rw [Cpu.clockAt_later _ _ (by simp [Cpu.nextPc, Cpu.later])]
    simp only [Cpu.nextPc, Cpu.later, Cpu.past]; rw [q1, q2]
  rw [← e] at hu
  refine (Cpu.runTo_one s.free (c.cpu.cycle + 1) (Cpu.nextPc (Cpu.branchOf s.free c.cpu op) (Cpu.later (c.cpu.cycle + 1) a c.cpu)) a q4 q5 q3 q6
    (by simp [Cpu.nextPc, Cpu.later, q1, Cpu.insertPend]) q2 ?_).trans hu
  exact (congrArg (fun z : Cpu => z.sups) hu).trans h2

/-- A control operation that leaves nothing on its way. -/
theorem IssuesTo.ctlStill {s : State} {n : Nat} {c : Core} {i : Instr} (op : CtlOp) {u : Cpu} (hI : Issuing s n c)
    (he : exec i s = .next (s.issueCtl n op)) (hf : Cpu.ctlFault c.cpu op = 0)
    (hm : ∀ sa id, op ≠ .mark sa id) (hd : ∀ k sa, op ≠ .dmai k sa)
    (hp : (Cpu.runCtl ⟨s.free, s.now, decide (c.dma.q.length < 64)⟩ c.cpu op c.cpu).Quiet)
    (hu : (Cpu.runCtl ⟨s.free, s.now, decide (c.dma.q.length < 64)⟩ c.cpu op c.cpu).past (Cpu.branchOf s.free c.cpu op) = u) :
    IssuesTo s n c i u := by
  refine .ctl hI he hf hm hd ?_
  obtain ⟨p1, p2, p3, p4, p5, p6⟩ := hp
  generalize hd' : Cpu.runCtl ⟨s.free, s.now, decide (c.dma.q.length < 64)⟩ c.cpu op c.cpu = d at *
  have hc : d.cycle = c.cpu.cycle := by
    rw [← hd']; cases op <;> simp only [Cpu.runCtl] <;> (try rfl) <;> (try (split <;> rfl)) <;> (try (simp only [Cpu.signal]; split <;> rfl))
  refine (Cpu.runTo_idle _ _ (Cpu.nextPc (Cpu.branchOf s.free c.cpu op) d) p4 p5 p3 p6 (by simp only [Cpu.nextPc]; rw [p1]; simp)
    (by simp only [Cpu.nextPc]; rw [p2]; simp)).trans ?_
  rw [← hu, Cpu.clockAt_later _ _ (by simp [Cpu.nextPc, hc])]
  simp only [Cpu.past, Cpu.nextPc, hc]

end Sys2Proof.Machine
end

