-- ==== Sys2Proof/Laws/Memory.lean ====
section
/-! SUPPORT. The byte stores: every operation keeps the canonical form, a read after a write gives the byte written, and a write leaves
every other address alone. -/

namespace Sys2Proof.Machine.Memory

/-- The canonical form in one sentence: no blank entry, addresses strictly rising. -/
theorem wf_iff (m : Memory) : m.wf = true ↔ (∀ c ∈ m, c.2 ≠ blank) ∧ m.Pairwise (fun c d => c.1 < d.1) := by
  induction m with
  | nil => simp [wf]
  | cons c m ih =>
    cases m with
    | nil => simp [wf]
    | cons d m =>
      have e : wf (c :: d :: m) = (c.2 != blank && decide (c.1 < d.1) && wf (d :: m)) := rfl
      rw [e, Bool.and_eq_true, Bool.and_eq_true, ih, List.pairwise_cons (a := c), List.forall_mem_cons (a := c)]
      simp only [bne_iff_ne, decide_eq_true_eq]
      constructor
      · rintro ⟨⟨hc, hd⟩, hb, hp⟩
        refine ⟨⟨hc, hb⟩, ?_, hp⟩
        intro x hx
        rcases List.mem_cons.mp hx with rfl | hx
        · exact hd
        · exact Nat.lt_trans hd ((List.pairwise_cons.mp hp).1 x hx)
      · rintro ⟨⟨hc, hb⟩, hs, hp⟩
        exact ⟨⟨hc, hs d List.mem_cons_self⟩, hb, hp⟩

/-- What is left of a canonical store is canonical. -/
theorem wf_sublist {m n : Memory} (h : m.wf = true) (s : List.Sublist n m) : n.wf = true := by
  rw [wf_iff] at h ⊢
  exact ⟨fun c hc => h.1 c (s.subset hc), h.2.sublist s⟩

/-- The empty store is canonical. -/
theorem wf_nil : wf [] = true := rfl

/-- An entry of a store after a write is the byte written or an entry of before. -/
theorem mem_set {m : Memory} {a : Nat} {b : Byte} {c : Host.Cell} (h : c ∈ set m a b) : (c = (a, b) ∧ b ≠ blank) ∨ c ∈ m := by
  induction m with
  | nil =>
    simp only [set, cons] at h
    split at h
    · cases h
    · exact .inl ⟨by simpa using h, ‹_›⟩
  | cons d m ih =>
    simp only [set, cons] at h
    split at h
    · split at h
      · exact .inr (List.mem_cons_of_mem _ h)
      · rcases List.mem_cons.mp h with rfl | h
        · exact .inl ⟨rfl, ‹_›⟩
        · exact .inr (List.mem_cons_of_mem _ h)
    · split at h
      · split at h
        · exact .inr h
        · rcases List.mem_cons.mp h with rfl | h
          · exact .inl ⟨rfl, ‹_›⟩
          · exact .inr h
      · rcases List.mem_cons.mp h with rfl | h
        · exact .inr List.mem_cons_self
        · rcases ih h with h | h
          · exact .inl h
          · exact .inr (List.mem_cons_of_mem _ h)

/-- A write keeps the canonical form. -/
theorem set_wf {m : Memory} (h : m.wf = true) (a : Nat) (b : Byte) : (set m a b).wf = true := by
  rw [wf_iff] at h ⊢
  obtain ⟨hb, hp⟩ := h
  refine ⟨fun c hc => ?_, ?_⟩
  · rcases mem_set hc with ⟨rfl, h⟩ | h
    · exact h
    · exact hb c h
  · induction m with
    | nil =>
      simp only [set, cons]
      split <;> simp
    | cons d m ih =>
      have hd := List.pairwise_cons.mp hp
      simp only [set, cons]
      split
      · next e =>
        split
        · exact hd.2
        · exact List.pairwise_cons.mpr ⟨fun x hx => by subst e; exact hd.1 x hx, hd.2⟩
      · split
        · next lt =>
          split
          · exact hp
          · refine List.pairwise_cons.mpr ⟨fun x hx => ?_, hp⟩
            rcases List.mem_cons.mp hx with rfl | hx
            · exact lt
            · exact Nat.lt_trans lt (hd.1 x hx)
        · next ne nlt =>
          refine List.pairwise_cons.mpr ⟨fun x hx => ?_, ih (fun c hc => hb c (List.mem_cons_of_mem _ hc)) hd.2⟩
          rcases mem_set hx with ⟨rfl, _⟩ | hx
          · exact Nat.lt_of_le_of_ne (Nat.le_of_not_lt nlt) ne
          · exact hd.1 x hx

/-- Writing consecutive bytes keeps the canonical form. -/
theorem write_wf {m : Memory} (h : m.wf = true) (a : Nat) (bs : List Byte) : (write m a bs).wf = true := by
  induction bs generalizing m a with
  | nil => exact h
  | cons b bs ih => exact ih (set_wf h a b) (a + 1)

/-- Writing bytes at wrapping addresses keeps the canonical form. -/
theorem writeWrap_wf (size : Nat) {m : Memory} (h : m.wf = true) (a : Nat) (bs : List Byte) : (writeWrap size m a bs).wf = true := by
  induction bs generalizing m a with
  | nil => exact h
  | cons b bs ih => exact ih (set_wf h (a % size) b) (a + 1)

/-- Writing a number keeps the canonical form. -/
theorem writeLE_wf {m : Memory} (h : m.wf = true) (a n v : Nat) : (writeLE m a n v).wf = true := write_wf h a _

/-- Clearing a range keeps the canonical form. -/
theorem clear_wf {m : Memory} (h : m.wf = true) (a n : Nat) : (clear m a n).wf = true := wf_sublist h List.filter_sublist

/-- A bit field written keeps the canonical form. -/
theorem putBits_wf (size : Nat) {m : Memory} (h : m.wf = true) (b w v : Nat) : (putBits size m b w v).wf = true := writeWrap_wf size h _ _

/-- A slice of a canonical store is canonical. -/
theorem slice_wf {m : Memory} (h : m.wf = true) (a n : Nat) : (slice m a n).wf = true := by
  have h := (wf_iff _).mp (wf_sublist h (List.filter_sublist (p := fun c => a ≤ c.1 && c.1 < a + n)))
  rw [wf_iff]
  refine ⟨fun c hc => ?_, ?_⟩
  · obtain ⟨d, hd, rfl⟩ := List.mem_map.mp hc
    exact h.1 d hd
  · refine List.pairwise_map.mpr (h.2.imp_of_mem fun {c d} hc hd lt => ?_)
    have := (List.mem_filter.mp hc).2
    simp only [Bool.and_eq_true, decide_eq_true_eq] at this
    exact Nat.sub_lt_sub_right this.1 lt

/-- A store pasted into a canonical one leaves it canonical. -/
theorem paste_wf {m p : Memory} (h : m.wf = true) (hp : p.wf = true) (a n : Nat) : (paste m a n p).wf = true := by
  have h1 := (wf_iff _).mp (wf_sublist h (List.filter_sublist (p := fun c => c.1 < a)))
  have h2 := (wf_iff _).mp (wf_sublist hp (List.filter_sublist (p := fun c => c.1 < n)))
  have h3 := (wf_iff _).mp (wf_sublist h (List.filter_sublist (p := fun c => a + n ≤ c.1)))
  rw [wf_iff]
  simp only [paste, List.append_assoc]
  refine ⟨fun c hc => ?_, ?_⟩
  · rcases List.mem_append.mp hc with hc | hc
    · exact h1.1 c hc
    · rcases List.mem_append.mp hc with hc | hc
      · obtain ⟨d, hd, rfl⟩ := List.mem_map.mp hc
        exact h2.1 d hd
      · exact h3.1 c hc
  · have lo : ∀ c ∈ m.filter (fun c => c.1 < a), c.1 < a := fun c hc => by simpa using (List.mem_filter.mp hc).2
    have hi : ∀ c ∈ m.filter (fun c => a + n ≤ c.1), a + n ≤ c.1 := fun c hc => by simpa using (List.mem_filter.mp hc).2
    have mid : ∀ c ∈ (p.filter fun c => c.1 < n).map (fun c => (c.1 + a, c.2)), a ≤ c.1 ∧ c.1 < a + n := by
      intro c hc
      obtain ⟨d, hd, rfl⟩ := List.mem_map.mp hc
      have : d.1 < n := by simpa using (List.mem_filter.mp hd).2
      exact ⟨Nat.le_add_left _ _, by show d.1 + a < a + n; omega⟩
    refine List.pairwise_append.mpr ⟨h1.2, List.pairwise_append.mpr ⟨?_, h3.2, ?_⟩, ?_⟩
    · exact List.pairwise_map.mpr (h2.2.imp fun lt => Nat.add_lt_add_right lt a)
    · intro c hc d hd
      have := mid c hc; have := hi d hd; omega
    · intro c hc d hd
      have hc := lo c hc
      rcases List.mem_append.mp hd with hd | hd
      · have := mid d hd; omega
      · have := hi d hd; omega

/-- A read after a write to the same address gives the byte written. -/
theorem get_set_same {m : Memory} (h : m.wf = true) (a : Nat) (b : Byte) : get (set m a b) a = b := by
  obtain hp := ((wf_iff _).mp h).2
  clear h
  have absent : ∀ {n : Memory}, (∀ c ∈ n, a < c.1) → get n a = blank := by
    intro n hn
    induction n with
    | nil => rfl
    | cons c n ih =>
      have : c.1 ≠ a := Nat.ne_of_gt (hn c List.mem_cons_self)
      simp only [get, this, if_false]
      exact ih fun d hd => hn d (List.mem_cons_of_mem _ hd)
  induction m with
  | nil =>
    simp only [set, cons]
    split
    · next e => simp [get, e]
    · simp [get]
  | cons c m ih =>
    have hc := List.pairwise_cons.mp hp
    simp only [set, cons]
    split
    · next e =>
      split
      · next eb => rw [absent fun d hd => e ▸ hc.1 d hd, eb]
      · simp [get]
    · next ne =>
      split
      · next lt =>
        split
        · next eb =>
          rw [eb]
          refine absent fun d hd => ?_
          rcases List.mem_cons.mp hd with rfl | hd
          · exact lt
          · exact Nat.lt_trans lt (hc.1 d hd)
        · simp [get]
      · simp only [get, ne, if_false]
        exact ih hc.2

/-- A write leaves every other address alone. -/
theorem get_set_other (m : Memory) {a x : Nat} (b : Byte) (ne : x ≠ a) : get (set m a b) x = get m x := by
  have ne' : a ≠ x := fun e => ne e.symm
  induction m with
  | nil =>
    simp only [set, cons]
    split
    · rfl
    · simp [get, ne']
  | cons c m ih =>
    simp only [set, cons]
    split
    · next e =>
      have : c.1 ≠ x := e ▸ ne'
      split
      · simp [get, this]
      · simp [get, ne', this]
    · split
      · split
        · rfl
        · simp [get, ne']
      · simp only [get]
        split
        · rfl
        · exact ih

/-- Writing consecutive bytes leaves every address outside them alone. -/
theorem get_write_other (m : Memory) (a x : Nat) (bs : List Byte) (h : x < a ∨ a + bs.length ≤ x) : get (write m a bs) x = get m x := by
  induction bs generalizing m a with
  | nil => rfl
  | cons b bs ih =>
    simp only [List.length_cons] at h
    rw [write, ih _ _ (by omega), get_set_other _ _ (by omega)]

/-- Two canonical stores that read alike everywhere are equal. -/
theorem wf_ext {m n : Memory} (hm : m.wf = true) (hn : n.wf = true) (h : ∀ a, get m a = get n a) : m = n := by
  rw [wf_iff] at hm hn
  have absent : ∀ {k : Memory} {a : Nat}, (∀ c ∈ k, a < c.1) → get k a = blank := by
    intro k a hk
    induction k with
    | nil => rfl
    | cons c k ih =>
      have : c.1 ≠ a := Nat.ne_of_gt (hk c List.mem_cons_self)
      simp only [get, this, if_false]
      exact ih fun d hd => hk d (List.mem_cons_of_mem _ hd)
  induction m generalizing n with
  | nil =>
    cases n with
    | nil => rfl
    | cons d n =>
      have := h d.1
      simp only [get, if_true] at this
      exact absurd this.symm (hn.1 d List.mem_cons_self)
  | cons c m ih =>
    have pm := List.pairwise_cons.mp hm.2
    cases n with
    | nil =>
      have := h c.1
      simp only [get, if_true] at this
      exact absurd this (hm.1 c List.mem_cons_self)
    | cons d n =>
      have pn := List.pairwise_cons.mp hn.2
      have key : c.1 = d.1 := by
        rcases Nat.lt_trichotomy c.1 d.1 with lt | e | lt
        · have := h c.1
          rw [absent (k := d :: n) (fun x hx => by
            rcases List.mem_cons.mp hx with rfl | hx
            · exact lt
            · exact Nat.lt_trans lt (pn.1 x hx))] at this
          simp only [get, if_true] at this
          exact absurd this (hm.1 c List.mem_cons_self)
        · exact e
        · have := h d.1
          rw [absent (k := c :: m) (fun x hx => by
            rcases List.mem_cons.mp hx with rfl | hx
            · exact lt
            · exact Nat.lt_trans lt (pm.1 x hx))] at this
          simp only [get, if_true] at this
          exact absurd this.symm (hn.1 d List.mem_cons_self)
      have val : c.2 = d.2 := by
        have := h c.1
        simp only [get, if_true, ← key] at this
        exact this
      have rest : m = n := ih ⟨fun x hx => hm.1 x (List.mem_cons_of_mem _ hx), pm.2⟩
        ⟨fun x hx => hn.1 x (List.mem_cons_of_mem _ hx), pn.2⟩ fun a => by
          rcases Nat.lt_trichotomy a c.1 with lt | e | lt
          · rw [absent fun x hx => Nat.lt_trans lt (pm.1 x hx), absent fun x hx => Nat.lt_trans lt (key ▸ pn.1 x hx)]
          · rw [absent fun x hx => e ▸ pm.1 x hx, absent fun x hx => by rw [e, key]; exact pn.1 x hx]
          · have := h a
            simp only [get, Nat.ne_of_lt lt, ← key, if_false] at this
            exact this
      rw [rest, show c = d from Prod.ext key val]

end Sys2Proof.Machine.Memory
end

