-- ==== Sys2Proof/Laws/PerInstr.lean ====
section
/-! SUPPORT. What well-formedness says of each command, one lemma for each constructor: a core it names has an LCN of the larger grade, and
the header of a firmware command fits its fields. -/

namespace Sys2Proof.Laws.Operands

/-- The first of two checks. -/
theorem and_left {a b : Bool} (h : (a && b) = true) : a = true := (Bool.and_eq_true_iff.mp h).1

/-- What a well-formed command names exists: its core (R18), and the fields of its header (R350). -/
def Statement (i : Instr) : Prop :=
  i.wf = true → (∀ n, i.namedCore = some n → n < 576) ∧ ∀ h, i.header? = some h → h.wf = true

theorem bundleIssue (lcn : Nat) : Statement (.bundleIssue lcn) :=
  fun h => ⟨fun m e => by cases e; exact of_decide_eq_true h, (fun _ e => nomatch e)⟩

theorem nop (lcn : Nat) : Statement (.nop lcn) :=
  fun h => ⟨fun m e => by cases e; exact of_decide_eq_true h, (fun _ e => nomatch e)⟩

theorem add (lcn : Nat) (sd : Fin 32) (sa : Fin 32) (sb : Fin 32) : Statement (.add lcn sd sa sb) :=
  fun h => ⟨fun m e => by cases e; exact of_decide_eq_true h, (fun _ e => nomatch e)⟩

theorem sub (lcn : Nat) (sd : Fin 32) (sa : Fin 32) (sb : Fin 32) : Statement (.sub lcn sd sa sb) :=
  fun h => ⟨fun m e => by cases e; exact of_decide_eq_true h, (fun _ e => nomatch e)⟩

theorem andOp (lcn : Nat) (sd : Fin 32) (sa : Fin 32) (sb : Fin 32) : Statement (.andOp lcn sd sa sb) :=
  fun h => ⟨fun m e => by cases e; exact of_decide_eq_true h, (fun _ e => nomatch e)⟩

theorem orOp (lcn : Nat) (sd : Fin 32) (sa : Fin 32) (sb : Fin 32) : Statement (.orOp lcn sd sa sb) :=
  fun h => ⟨fun m e => by cases e; exact of_decide_eq_true h, (fun _ e => nomatch e)⟩

theorem xor (lcn : Nat) (sd : Fin 32) (sa : Fin 32) (sb : Fin 32) : Statement (.xor lcn sd sa sb) :=
  fun h => ⟨fun m e => by cases e; exact of_decide_eq_true h, (fun _ e => nomatch e)⟩

theorem shl (lcn : Nat) (sd : Fin 32) (sa : Fin 32) (sb : Fin 32) : Statement (.shl lcn sd sa sb) :=
  fun h => ⟨fun m e => by cases e; exact of_decide_eq_true h, (fun _ e => nomatch e)⟩

theorem shr (lcn : Nat) (sd : Fin 32) (sa : Fin 32) (sb : Fin 32) : Statement (.shr lcn sd sa sb) :=
  fun h => ⟨fun m e => by cases e; exact of_decide_eq_true h, (fun _ e => nomatch e)⟩

theorem sra (lcn : Nat) (sd : Fin 32) (sa : Fin 32) (sb : Fin 32) : Statement (.sra lcn sd sa sb) :=
  fun h => ⟨fun m e => by cases e; exact of_decide_eq_true h, (fun _ e => nomatch e)⟩

theorem mul (lcn : Nat) (sd : Fin 32) (sa : Fin 32) (sb : Fin 32) : Statement (.mul lcn sd sa sb) :=
  fun h => ⟨fun m e => by cases e; exact of_decide_eq_true h, (fun _ e => nomatch e)⟩

theorem min (lcn : Nat) (sd : Fin 32) (sa : Fin 32) (sb : Fin 32) : Statement (.min lcn sd sa sb) :=
  fun h => ⟨fun m e => by cases e; exact of_decide_eq_true h, (fun _ e => nomatch e)⟩

theorem max (lcn : Nat) (sd : Fin 32) (sa : Fin 32) (sb : Fin 32) : Statement (.max lcn sd sa sb) :=
  fun h => ⟨fun m e => by cases e; exact of_decide_eq_true h, (fun _ e => nomatch e)⟩

theorem addi (lcn : Nat) (sd : Fin 32) (sa : Fin 32) (imm : BitVec 14) : Statement (.addi lcn sd sa imm) :=
  fun h => ⟨fun m e => by cases e; exact of_decide_eq_true h, (fun _ e => nomatch e)⟩

theorem subi (lcn : Nat) (sd : Fin 32) (sa : Fin 32) (imm : BitVec 14) : Statement (.subi lcn sd sa imm) :=
  fun h => ⟨fun m e => by cases e; exact of_decide_eq_true h, (fun _ e => nomatch e)⟩

theorem andi (lcn : Nat) (sd : Fin 32) (sa : Fin 32) (imm : BitVec 14) : Statement (.andi lcn sd sa imm) :=
  fun h => ⟨fun m e => by cases e; exact of_decide_eq_true h, (fun _ e => nomatch e)⟩

theorem ori (lcn : Nat) (sd : Fin 32) (sa : Fin 32) (imm : BitVec 14) : Statement (.ori lcn sd sa imm) :=
  fun h => ⟨fun m e => by cases e; exact of_decide_eq_true h, (fun _ e => nomatch e)⟩

theorem xori (lcn : Nat) (sd : Fin 32) (sa : Fin 32) (imm : BitVec 14) : Statement (.xori lcn sd sa imm) :=
  fun h => ⟨fun m e => by cases e; exact of_decide_eq_true h, (fun _ e => nomatch e)⟩

theorem shli (lcn : Nat) (sd : Fin 32) (sa : Fin 32) (imm : BitVec 14) : Statement (.shli lcn sd sa imm) :=
  fun h => ⟨fun m e => by cases e; exact of_decide_eq_true h, (fun _ e => nomatch e)⟩

theorem shri (lcn : Nat) (sd : Fin 32) (sa : Fin 32) (imm : BitVec 14) : Statement (.shri lcn sd sa imm) :=
  fun h => ⟨fun m e => by cases e; exact of_decide_eq_true h, (fun _ e => nomatch e)⟩

theorem srai (lcn : Nat) (sd : Fin 32) (sa : Fin 32) (imm : BitVec 14) : Statement (.srai lcn sd sa imm) :=
  fun h => ⟨fun m e => by cases e; exact of_decide_eq_true h, (fun _ e => nomatch e)⟩

theorem muli (lcn : Nat) (sd : Fin 32) (sa : Fin 32) (imm : BitVec 14) : Statement (.muli lcn sd sa imm) :=
  fun h => ⟨fun m e => by cases e; exact of_decide_eq_true h, (fun _ e => nomatch e)⟩

theorem mini (lcn : Nat) (sd : Fin 32) (sa : Fin 32) (imm : BitVec 14) : Statement (.mini lcn sd sa imm) :=
  fun h => ⟨fun m e => by cases e; exact of_decide_eq_true h, (fun _ e => nomatch e)⟩

theorem maxi (lcn : Nat) (sd : Fin 32) (sa : Fin 32) (imm : BitVec 14) : Statement (.maxi lcn sd sa imm) :=
  fun h => ⟨fun m e => by cases e; exact of_decide_eq_true h, (fun _ e => nomatch e)⟩

theorem li (lcn : Nat) (sd : Fin 32) (imm : BitVec 19) : Statement (.li lcn sd imm) :=
  fun h => ⟨fun m e => by cases e; exact of_decide_eq_true h, (fun _ e => nomatch e)⟩

theorem lih (lcn : Nat) (sd : Fin 32) (q : BitVec 2) (imm : BitVec 16) : Statement (.lih lcn sd q imm) :=
  fun h => ⟨fun m e => by cases e; exact of_decide_eq_true h, (fun _ e => nomatch e)⟩

theorem lcSet (lcn : Nat) (cn : Fin 16) (imm : BitVec 20) : Statement (.lcSet lcn cn imm) :=
  fun h => ⟨fun m e => by cases e; exact of_decide_eq_true h, (fun _ e => nomatch e)⟩

theorem lcAdd (lcn : Nat) (cn : Fin 16) (imm : BitVec 20) : Statement (.lcAdd lcn cn imm) :=
  fun h => ⟨fun m e => by cases e; exact of_decide_eq_true h, (fun _ e => nomatch e)⟩

theorem lcMov (lcn : Nat) (cn : Fin 16) (sa : Fin 32) : Statement (.lcMov lcn cn sa) :=
  fun h => ⟨fun m e => by cases e; exact of_decide_eq_true h, (fun _ e => nomatch e)⟩

theorem movC (lcn : Nat) (sd : Fin 32) (cn : Fin 16) : Statement (.movC lcn sd cn) :=
  fun h => ⟨fun m e => by cases e; exact of_decide_eq_true h, (fun _ e => nomatch e)⟩

theorem cmp (lcn : Nat) (kd : Fin 8) (cond : BitVec 4) (sa : Fin 32) (sb : Fin 32) : Statement (.cmp lcn kd cond sa sb) :=
  fun h => ⟨fun m e => by cases e; exact of_decide_eq_true h, (fun _ e => nomatch e)⟩

theorem cmpi (lcn : Nat) (kd : Fin 8) (cond : BitVec 4) (sa : Fin 32) (imm : BitVec 12) : Statement (.cmpi lcn kd cond sa imm) :=
  fun h => ⟨fun m e => by cases e; exact of_decide_eq_true h, (fun _ e => nomatch e)⟩

theorem kop (lcn : Nat) (kd : Fin 8) (ka : Fin 8) (kb : Fin 8) (fn : BitVec 3) : Statement (.kop lcn kd ka kb fn) :=
  fun h => ⟨fun m e => by cases e; exact of_decide_eq_true h, (fun _ e => nomatch e)⟩

theorem br (lcn : Nat) (target : BitVec 14) : Statement (.br lcn target) :=
  fun h => ⟨fun m e => by cases e; exact of_decide_eq_true h, (fun _ e => nomatch e)⟩

theorem brK (lcn : Nat) (kn : Fin 8) (sense : Bool) (target : BitVec 14) : Statement (.brK lcn kn sense target) :=
  fun h => ⟨fun m e => by cases e; exact of_decide_eq_true h, (fun _ e => nomatch e)⟩

theorem brC (lcn : Nat) (cn : Fin 16) (target : BitVec 14) : Statement (.brC lcn cn target) :=
  fun h => ⟨fun m e => by cases e; exact of_decide_eq_true h, (fun _ e => nomatch e)⟩

theorem semInc (lcn : Nat) (mn : BitVec 6) (imm : BitVec 16) : Statement (.semInc lcn mn imm) :=
  fun h => ⟨fun m e => by cases e; exact of_decide_eq_true h, (fun _ e => nomatch e)⟩

theorem semSet (lcn : Nat) (mn : BitVec 6) (imm : BitVec 16) : Statement (.semSet lcn mn imm) :=
  fun h => ⟨fun m e => by cases e; exact of_decide_eq_true h, (fun _ e => nomatch e)⟩

theorem semW (lcn : Nat) (mn : BitVec 6) (consume : Bool) (target : BitVec 16) : Statement (.semW lcn mn consume target) :=
  fun h => ⟨fun m e => by cases e; exact of_decide_eq_true h, (fun _ e => nomatch e)⟩

theorem waitT (lcn : Nat) (sa : Fin 32) : Statement (.waitT lcn sa) :=
  fun h => ⟨fun m e => by cases e; exact of_decide_eq_true h, (fun _ e => nomatch e)⟩

theorem timeRd (lcn : Nat) (sd : Fin 32) : Statement (.timeRd lcn sd) :=
  fun h => ⟨fun m e => by cases e; exact of_decide_eq_true h, (fun _ e => nomatch e)⟩

theorem mark (lcn : Nat) (sa : Fin 32) (id : BitVec 16) : Statement (.mark lcn sa id) :=
  fun h => ⟨fun m e => by cases e; exact of_decide_eq_true h, (fun _ e => nomatch e)⟩

theorem dmai (lcn : Nat) (kd : Fin 8) (sa : Fin 32) : Statement (.dmai lcn kd sa) :=
  fun h => ⟨fun m e => by cases e; exact of_decide_eq_true h, (fun _ e => nomatch e)⟩

theorem scaleDn (lcn : Nat) (sd : Fin 32) (sa : Fin 32) (sh : BitVec 4) : Statement (.scaleDn lcn sd sa sh) :=
  fun h => ⟨fun m e => by cases e; exact of_decide_eq_true h, (fun _ e => nomatch e)⟩

theorem flagK (lcn : Nat) (kd : Fin 8) : Statement (.flagK lcn kd) :=
  fun h => ⟨fun m e => by cases e; exact of_decide_eq_true h, (fun _ e => nomatch e)⟩

theorem flagClr (lcn : Nat) : Statement (.flagClr lcn) :=
  fun h => ⟨fun m e => by cases e; exact of_decide_eq_true h, (fun _ e => nomatch e)⟩

theorem endOp (lcn : Nat) : Statement (.endOp lcn) :=
  fun h => ⟨fun m e => by cases e; exact of_decide_eq_true h, (fun _ e => nomatch e)⟩

theorem coreComplete (lcn : Nat) : Statement (.coreComplete lcn) :=
  fun h => ⟨fun m e => by cases e; exact of_decide_eq_true h, (fun _ e => nomatch e)⟩

theorem ldB (lcn : Nat) (sd : Fin 32) (sa : Fin 32) (imm : BitVec 14) : Statement (.ldB lcn sd sa imm) :=
  fun h => ⟨fun m e => by cases e; exact of_decide_eq_true h, (fun _ e => nomatch e)⟩

theorem ldH (lcn : Nat) (sd : Fin 32) (sa : Fin 32) (imm : BitVec 14) : Statement (.ldH lcn sd sa imm) :=
  fun h => ⟨fun m e => by cases e; exact of_decide_eq_true h, (fun _ e => nomatch e)⟩

theorem ldW (lcn : Nat) (sd : Fin 32) (sa : Fin 32) (imm : BitVec 14) : Statement (.ldW lcn sd sa imm) :=
  fun h => ⟨fun m e => by cases e; exact of_decide_eq_true h, (fun _ e => nomatch e)⟩

theorem ldD (lcn : Nat) (sd : Fin 32) (sa : Fin 32) (imm : BitVec 14) : Statement (.ldD lcn sd sa imm) :=
  fun h => ⟨fun m e => by cases e; exact of_decide_eq_true h, (fun _ e => nomatch e)⟩

theorem stB (lcn : Nat) (sb : Fin 32) (sa : Fin 32) (imm : BitVec 14) : Statement (.stB lcn sb sa imm) :=
  fun h => ⟨fun m e => by cases e; exact of_decide_eq_true h, (fun _ e => nomatch e)⟩

theorem stH (lcn : Nat) (sb : Fin 32) (sa : Fin 32) (imm : BitVec 14) : Statement (.stH lcn sb sa imm) :=
  fun h => ⟨fun m e => by cases e; exact of_decide_eq_true h, (fun _ e => nomatch e)⟩

theorem stW (lcn : Nat) (sb : Fin 32) (sa : Fin 32) (imm : BitVec 14) : Statement (.stW lcn sb sa imm) :=
  fun h => ⟨fun m e => by cases e; exact of_decide_eq_true h, (fun _ e => nomatch e)⟩

theorem stD (lcn : Nat) (sb : Fin 32) (sa : Fin 32) (imm : BitVec 14) : Statement (.stD lcn sb sa imm) :=
  fun h => ⟨fun m e => by cases e; exact of_decide_eq_true h, (fun _ e => nomatch e)⟩

theorem faddD (lcn : Nat) (sd : Fin 32) (sa : Fin 32) (sb : Fin 32) : Statement (.faddD lcn sd sa sb) :=
  fun h => ⟨fun m e => by cases e; exact of_decide_eq_true h, (fun _ e => nomatch e)⟩

theorem fsubD (lcn : Nat) (sd : Fin 32) (sa : Fin 32) (sb : Fin 32) : Statement (.fsubD lcn sd sa sb) :=
  fun h => ⟨fun m e => by cases e; exact of_decide_eq_true h, (fun _ e => nomatch e)⟩

theorem fmulD (lcn : Nat) (sd : Fin 32) (sa : Fin 32) (sb : Fin 32) : Statement (.fmulD lcn sd sa sb) :=
  fun h => ⟨fun m e => by cases e; exact of_decide_eq_true h, (fun _ e => nomatch e)⟩

theorem fmaD (lcn : Nat) (sd : Fin 32) (sa : Fin 32) (sb : Fin 32) (sc : Fin 32) : Statement (.fmaD lcn sd sa sb sc) :=
  fun h => ⟨fun m e => by cases e; exact of_decide_eq_true h, (fun _ e => nomatch e)⟩

theorem fdivD (lcn : Nat) (sd : Fin 32) (sa : Fin 32) (sb : Fin 32) : Statement (.fdivD lcn sd sa sb) :=
  fun h => ⟨fun m e => by cases e; exact of_decide_eq_true h, (fun _ e => nomatch e)⟩

theorem fsqrtD (lcn : Nat) (sd : Fin 32) (sa : Fin 32) : Statement (.fsqrtD lcn sd sa) :=
  fun h => ⟨fun m e => by cases e; exact of_decide_eq_true h, (fun _ e => nomatch e)⟩

theorem fcmpD (lcn : Nat) (kd : Fin 8) (cond : BitVec 4) (sa : Fin 32) (sb : Fin 32) : Statement (.fcmpD lcn kd cond sa sb) :=
  fun h => ⟨fun m e => by cases e; exact of_decide_eq_true h, (fun _ e => nomatch e)⟩

theorem cvtDL (lcn : Nat) (sd : Fin 32) (sa : Fin 32) : Statement (.cvtDL lcn sd sa) :=
  fun h => ⟨fun m e => by cases e; exact of_decide_eq_true h, (fun _ e => nomatch e)⟩

theorem cvtLD (lcn : Nat) (sd : Fin 32) (sa : Fin 32) : Statement (.cvtLD lcn sd sa) :=
  fun h => ⟨fun m e => by cases e; exact of_decide_eq_true h, (fun _ e => nomatch e)⟩

theorem cvtDF (lcn : Nat) (sd : Fin 32) (sa : Fin 32) : Statement (.cvtDF lcn sd sa) :=
  fun h => ⟨fun m e => by cases e; exact of_decide_eq_true h, (fun _ e => nomatch e)⟩

theorem cvtFD (lcn : Nat) (sd : Fin 32) (sa : Fin 32) : Statement (.cvtFD lcn sd sa) :=
  fun h => ⟨fun m e => by cases e; exact of_decide_eq_true h, (fun _ e => nomatch e)⟩

theorem brI (lcn : Nat) (sa : Fin 32) : Statement (.brI lcn sa) :=
  fun h => ⟨fun m e => by cases e; exact of_decide_eq_true h, (fun _ e => nomatch e)⟩

theorem call (lcn : Nat) (target : BitVec 14) : Statement (.call lcn target) :=
  fun h => ⟨fun m e => by cases e; exact of_decide_eq_true h, (fun _ e => nomatch e)⟩

theorem ret (lcn : Nat) : Statement (.ret lcn) :=
  fun h => ⟨fun m e => by cases e; exact of_decide_eq_true h, (fun _ e => nomatch e)⟩

theorem tcfg (lcn : Nat) (tn : Fin 16) (sa : Fin 32) (al : Bool) : Statement (.tcfg lcn tn sa al) :=
  fun h => ⟨fun m e => by cases e; exact of_decide_eq_true h, (fun _ e => nomatch e)⟩

theorem tcfgRelease (lcn : Nat) (tn : Fin 16) : Statement (.tcfgRelease lcn tn) :=
  fun h => ⟨fun m e => by cases e; exact of_decide_eq_true h, (fun _ e => nomatch e)⟩

theorem lds (lcn : Nat) (tg : Fin 16) (gm1 : BitVec 2) (kslice : BitVec 5) (nblock : BitVec 3) (arr : BitVec 2) : Statement (.lds lcn tg gm1 kslice nblock arr) :=
  fun h => ⟨fun m e => by cases e; exact of_decide_eq_true h, (fun _ e => nomatch e)⟩

theorem ldsT (lcn : Nat) (tg : Fin 16) (gm1 : BitVec 2) (kslice : BitVec 5) (nblock : BitVec 3) (arr : BitVec 2) : Statement (.ldsT lcn tg gm1 kslice nblock arr) :=
  fun h => ⟨fun m e => by cases e; exact of_decide_eq_true h, (fun _ e => nomatch e)⟩

theorem swap (lcn : Nat) : Statement (.swap lcn) :=
  fun h => ⟨fun m e => by cases e; exact of_decide_eq_true h, (fun _ e => nomatch e)⟩

theorem mma (lcn : Nat) (sa : Fin 32) (sb : Fin 32) (msem : BitVec 6) (arr : BitVec 2) : Statement (.mma lcn sa sb msem arr) :=
  fun h => ⟨fun m e => by cases e; exact of_decide_eq_true h, (fun _ e => nomatch e)⟩

theorem mmaT (lcn : Nat) (sa : Fin 32) (sb : Fin 32) (msem : BitVec 6) (arr : BitVec 2) : Statement (.mmaT lcn sa sb msem arr) :=
  fun h => ⟨fun m e => by cases e; exact of_decide_eq_true h, (fun _ e => nomatch e)⟩

theorem mwait (lcn : Nat) (mn : BitVec 6) (consume : Bool) (target : BitVec 16) : Statement (.mwait lcn mn consume target) :=
  fun h => ⟨fun m e => by cases e; exact of_decide_eq_true h, (fun _ e => nomatch e)⟩

theorem passStart (lcn : Nat) : Statement (.passStart lcn) :=
  fun h => ⟨fun m e => by cases e; exact of_decide_eq_true h, (fun _ e => nomatch e)⟩

theorem passCommit (lcn : Nat) : Statement (.passCommit lcn) :=
  fun h => ⟨fun m e => by cases e; exact of_decide_eq_true h, (fun _ e => nomatch e)⟩

theorem vopAdd (lcn : Nat) (td : Fin 16) (a : BitVec 7) (b : BitVec 7) (cr : Fin 16) : Statement (.vopAdd lcn td a b cr) :=
  fun h => ⟨fun m e => by cases e; exact of_decide_eq_true h, (fun _ e => nomatch e)⟩

theorem vopSub (lcn : Nat) (td : Fin 16) (a : BitVec 7) (b : BitVec 7) (cr : Fin 16) : Statement (.vopSub lcn td a b cr) :=
  fun h => ⟨fun m e => by cases e; exact of_decide_eq_true h, (fun _ e => nomatch e)⟩

theorem vopMul (lcn : Nat) (td : Fin 16) (a : BitVec 7) (b : BitVec 7) (cr : Fin 16) : Statement (.vopMul lcn td a b cr) :=
  fun h => ⟨fun m e => by cases e; exact of_decide_eq_true h, (fun _ e => nomatch e)⟩

theorem vopFma (lcn : Nat) (td : Fin 16) (a : BitVec 7) (b : BitVec 7) (cr : Fin 16) : Statement (.vopFma lcn td a b cr) :=
  fun h => ⟨fun m e => by cases e; exact of_decide_eq_true h, (fun _ e => nomatch e)⟩

theorem vopMax (lcn : Nat) (td : Fin 16) (a : BitVec 7) (b : BitVec 7) (cr : Fin 16) : Statement (.vopMax lcn td a b cr) :=
  fun h => ⟨fun m e => by cases e; exact of_decide_eq_true h, (fun _ e => nomatch e)⟩

theorem vopMin (lcn : Nat) (td : Fin 16) (a : BitVec 7) (b : BitVec 7) (cr : Fin 16) : Statement (.vopMin lcn td a b cr) :=
  fun h => ⟨fun m e => by cases e; exact of_decide_eq_true h, (fun _ e => nomatch e)⟩

theorem vopAbs (lcn : Nat) (td : Fin 16) (a : BitVec 7) (b : BitVec 7) (cr : Fin 16) : Statement (.vopAbs lcn td a b cr) :=
  fun h => ⟨fun m e => by cases e; exact of_decide_eq_true h, (fun _ e => nomatch e)⟩

theorem vopNeg (lcn : Nat) (td : Fin 16) (a : BitVec 7) (b : BitVec 7) (cr : Fin 16) : Statement (.vopNeg lcn td a b cr) :=
  fun h => ⟨fun m e => by cases e; exact of_decide_eq_true h, (fun _ e => nomatch e)⟩

theorem vopExp (lcn : Nat) (td : Fin 16) (a : BitVec 7) (b : BitVec 7) (cr : Fin 16) : Statement (.vopExp lcn td a b cr) :=
  fun h => ⟨fun m e => by cases e; exact of_decide_eq_true h, (fun _ e => nomatch e)⟩

theorem vopLog (lcn : Nat) (td : Fin 16) (a : BitVec 7) (b : BitVec 7) (cr : Fin 16) : Statement (.vopLog lcn td a b cr) :=
  fun h => ⟨fun m e => by cases e; exact of_decide_eq_true h, (fun _ e => nomatch e)⟩

theorem vopRecip (lcn : Nat) (td : Fin 16) (a : BitVec 7) (b : BitVec 7) (cr : Fin 16) : Statement (.vopRecip lcn td a b cr) :=
  fun h => ⟨fun m e => by cases e; exact of_decide_eq_true h, (fun _ e => nomatch e)⟩

theorem vopRsqrt (lcn : Nat) (td : Fin 16) (a : BitVec 7) (b : BitVec 7) (cr : Fin 16) : Statement (.vopRsqrt lcn td a b cr) :=
  fun h => ⟨fun m e => by cases e; exact of_decide_eq_true h, (fun _ e => nomatch e)⟩

theorem vopTanh (lcn : Nat) (td : Fin 16) (a : BitVec 7) (b : BitVec 7) (cr : Fin 16) : Statement (.vopTanh lcn td a b cr) :=
  fun h => ⟨fun m e => by cases e; exact of_decide_eq_true h, (fun _ e => nomatch e)⟩

theorem vopMov (lcn : Nat) (td : Fin 16) (a : BitVec 7) (b : BitVec 7) (cr : Fin 16) : Statement (.vopMov lcn td a b cr) :=
  fun h => ⟨fun m e => by cases e; exact of_decide_eq_true h, (fun _ e => nomatch e)⟩

theorem vredSum (lcn : Nat) (td : Fin 16) (a : BitVec 7) (b : BitVec 7) (cr : Fin 16) (sh : BitVec 2) : Statement (.vredSum lcn td a b cr sh) :=
  fun h => ⟨fun m e => by cases e; exact of_decide_eq_true h, (fun _ e => nomatch e)⟩

theorem vredMax (lcn : Nat) (td : Fin 16) (a : BitVec 7) (b : BitVec 7) (cr : Fin 16) (sh : BitVec 2) : Statement (.vredMax lcn td a b cr sh) :=
  fun h => ⟨fun m e => by cases e; exact of_decide_eq_true h, (fun _ e => nomatch e)⟩

theorem vredSsq (lcn : Nat) (td : Fin 16) (a : BitVec 7) (b : BitVec 7) (cr : Fin 16) (sh : BitVec 2) : Statement (.vredSsq lcn td a b cr sh) :=
  fun h => ⟨fun m e => by cases e; exact of_decide_eq_true h, (fun _ e => nomatch e)⟩

theorem vredDot (lcn : Nat) (td : Fin 16) (a : BitVec 7) (b : BitVec 7) (cr : Fin 16) (sh : BitVec 2) : Statement (.vredDot lcn td a b cr sh) :=
  fun h => ⟨fun m e => by cases e; exact of_decide_eq_true h, (fun _ e => nomatch e)⟩

theorem vredSSum (lcn : Nat) (sd : Fin 32) (a : BitVec 7) (b : BitVec 7) (cr : Fin 16) : Statement (.vredSSum lcn sd a b cr) :=
  fun h => ⟨fun m e => by cases e; exact of_decide_eq_true h, (fun _ e => nomatch e)⟩

theorem vredSMax (lcn : Nat) (sd : Fin 32) (a : BitVec 7) (b : BitVec 7) (cr : Fin 16) : Statement (.vredSMax lcn sd a b cr) :=
  fun h => ⟨fun m e => by cases e; exact of_decide_eq_true h, (fun _ e => nomatch e)⟩

theorem vredSSsq (lcn : Nat) (sd : Fin 32) (a : BitVec 7) (b : BitVec 7) (cr : Fin 16) : Statement (.vredSSsq lcn sd a b cr) :=
  fun h => ⟨fun m e => by cases e; exact of_decide_eq_true h, (fun _ e => nomatch e)⟩

theorem vredSDot (lcn : Nat) (sd : Fin 32) (a : BitVec 7) (b : BitVec 7) (cr : Fin 16) : Statement (.vredSDot lcn sd a b cr) :=
  fun h => ⟨fun m e => by cases e; exact of_decide_eq_true h, (fun _ e => nomatch e)⟩

theorem cvt (lcn : Nat) (td : Fin 16) (a : BitVec 7) (ss : Fin 32) (cr : Fin 16) (g : Bool) : Statement (.cvt lcn td a ss cr g) :=
  fun h => ⟨fun m e => by cases e; exact of_decide_eq_true h, (fun _ e => nomatch e)⟩

theorem rng (lcn : Nat) (td : Fin 16) (ss : Fin 32) (cr : Fin 16) : Statement (.rng lcn td ss cr) :=
  fun h => ⟨fun m e => by cases e; exact of_decide_eq_true h, (fun _ e => nomatch e)⟩

theorem updc (lcn : Nat) (tw : Fin 16) (a : BitVec 7) (tq : Fin 16) (cr : Fin 16) : Statement (.updc lcn tw a tq cr) :=
  fun h => ⟨fun m e => by cases e; exact of_decide_eq_true h, (fun _ e => nomatch e)⟩

theorem vsig (lcn : Nat) (mn : BitVec 6) (imm : BitVec 16) : Statement (.vsig lcn mn imm) :=
  fun h => ⟨fun m e => by cases e; exact of_decide_eq_true h, (fun _ e => nomatch e)⟩

theorem vwait (lcn : Nat) (mn : BitVec 6) (consume : Bool) (target : BitVec 16) : Statement (.vwait lcn mn consume target) :=
  fun h => ⟨fun m e => by cases e; exact of_decide_eq_true h, (fun _ e => nomatch e)⟩

theorem tld (lcn : Nat) (tn : Fin 16) (sa : Fin 32) : Statement (.tld lcn tn sa) :=
  fun h => ⟨fun m e => by cases e; exact of_decide_eq_true h, (fun _ e => nomatch e)⟩

theorem tst (lcn : Nat) (tn : Fin 16) (sa : Fin 32) : Statement (.tst lcn tn sa) :=
  fun h => ⟨fun m e => by cases e; exact of_decide_eq_true h, (fun _ e => nomatch e)⟩

theorem ard (lcn : Nat) (tn : Fin 16) (aa : Fin 64) (row0 : BitVec 5) (nm1 : BitVec 5) (cr : Fin 16) : Statement (.ard lcn tn aa row0 nm1 cr) :=
  fun h => ⟨fun m e => by cases e; exact of_decide_eq_true h, (fun _ e => nomatch e)⟩

theorem resultLand (lcn : Nat) : Statement (.resultLand lcn) :=
  fun h => ⟨fun m e => by cases e; exact of_decide_eq_true h, (fun _ e => nomatch e)⟩

theorem semaphoreUpdate (lcn : Nat) : Statement (.semaphoreUpdate lcn) :=
  fun h => ⟨fun m e => by cases e; exact of_decide_eq_true h, (fun _ e => nomatch e)⟩

theorem waiterWake (lcn : Nat) (eng : Nat) : Statement (.waiterWake lcn eng) :=
  fun h => ⟨fun m e => by cases e; exact of_decide_eq_true (and_left h), (fun _ e => nomatch e)⟩

theorem waitTResume (lcn : Nat) : Statement (.waitTResume lcn) :=
  fun h => ⟨fun m e => by cases e; exact of_decide_eq_true h, (fun _ e => nomatch e)⟩

theorem descriptorStart (lcn : Nat) : Statement (.descriptorStart lcn) :=
  fun h => ⟨fun m e => by cases e; exact of_decide_eq_true h, (fun _ e => nomatch e)⟩

theorem runAheadTouch (lcn : Nat) (block : Nat) : Statement (.runAheadTouch lcn block) :=
  fun h => ⟨fun m e => by cases e; exact of_decide_eq_true h, (fun _ e => nomatch e)⟩

theorem sliceRequest (lcn : Nat) (slot : Nat) (err : Nat) : Statement (.sliceRequest lcn slot err) :=
  fun h => ⟨fun m e => by cases e; exact of_decide_eq_true (and_left (and_left h)), (fun _ e => nomatch e)⟩

theorem requestFailed (lcn : Nat) (slot : Nat) : Statement (.requestFailed lcn slot) :=
  fun h => ⟨fun m e => by cases e; exact of_decide_eq_true (and_left h), (fun _ e => nomatch e)⟩

theorem writeAck (lcn : Nat) (slot : Nat) : Statement (.writeAck lcn slot) :=
  fun h => ⟨fun m e => by cases e; exact of_decide_eq_true (and_left h), (fun _ e => nomatch e)⟩

theorem itemComplete (lcn : Nat) (uid : Nat) : Statement (.itemComplete lcn uid) :=
  fun h => ⟨fun m e => by cases e; exact of_decide_eq_true h, (fun _ e => nomatch e)⟩

theorem itemDeadline (lcn : Nat) (uid : Nat) : Statement (.itemDeadline lcn uid) :=
  fun h => ⟨fun m e => by cases e; exact of_decide_eq_true h, (fun _ e => nomatch e)⟩

theorem creditGrant (lcn : Nat) : Statement (.creditGrant lcn) :=
  fun h => ⟨fun m e => by cases e; exact of_decide_eq_true h, (fun _ e => nomatch e)⟩

theorem arrivalLand (lcn : Nat) : Statement (.arrivalLand lcn) :=
  fun h => ⟨fun m e => by cases e; exact of_decide_eq_true h, (fun _ e => nomatch e)⟩

theorem moveStart (mover : Nat) : Statement (.moveStart mover) :=
  fun _ => ⟨(fun _ e => nomatch e), (fun _ e => nomatch e)⟩

theorem moveCommit (block : Nat) (err : Bool) : Statement (.moveCommit block err) :=
  fun _ => ⟨(fun _ e => nomatch e), (fun _ e => nomatch e)⟩

theorem cowCommit (block : Nat) : Statement (.cowCommit block) :=
  fun _ => ⟨(fun _ e => nomatch e), (fun _ e => nomatch e)⟩

theorem patrolScrub (heart : Bool) (slice : Nat) (addr : Nat) (err : Nat) : Statement (.patrolScrub heart slice addr err) :=
  fun _ => ⟨(fun _ e => nomatch e), (fun _ e => nomatch e)⟩

theorem heartStackFailure (stack : Nat) : Statement (.heartStackFailure stack) :=
  fun _ => ⟨(fun _ e => nomatch e), (fun _ e => nomatch e)⟩

theorem tick : Statement (.tick) :=
  fun _ => ⟨(fun _ e => nomatch e), (fun _ e => nomatch e)⟩

theorem commandRelease (k : Nat) : Statement (.commandRelease k) :=
  fun _ => ⟨(fun _ e => nomatch e), (fun _ e => nomatch e)⟩

theorem commandDeadline (k : Nat) : Statement (.commandDeadline k) :=
  fun _ => ⟨(fun _ e => nomatch e), (fun _ e => nomatch e)⟩

theorem fencedCommandEffect (k : Nat) : Statement (.fencedCommandEffect k) :=
  fun _ => ⟨(fun _ e => nomatch e), (fun _ e => nomatch e)⟩

theorem jobLoad (h : Hdr) (p : JobLoad) : Statement (.jobLoad h p) :=
  fun w => ⟨(fun _ e => nomatch e), fun g e => by cases e; exact (and_left w)⟩

theorem jobPlace : Statement (.jobPlace) :=
  fun _ => ⟨(fun _ e => nomatch e), (fun _ e => nomatch e)⟩

theorem jobStart (h : Hdr) : Statement (.jobStart h) :=
  fun w => ⟨(fun _ e => nomatch e), fun g e => by cases e; exact w⟩

theorem jobPreempt (h : Hdr) : Statement (.jobPreempt h) :=
  fun w => ⟨(fun _ e => nomatch e), fun g e => by cases e; exact w⟩

theorem stopRequest (lcn : Nat) : Statement (.stopRequest lcn) :=
  fun h => ⟨fun m e => by cases e; exact of_decide_eq_true h, (fun _ e => nomatch e)⟩

theorem coreSaveDone (lcn : Nat) : Statement (.coreSaveDone lcn) :=
  fun h => ⟨fun m e => by cases e; exact of_decide_eq_true h, (fun _ e => nomatch e)⟩

theorem jobResume (h : Hdr) : Statement (.jobResume h) :=
  fun w => ⟨(fun _ e => nomatch e), fun g e => by cases e; exact w⟩

theorem jobUnload (h : Hdr) : Statement (.jobUnload h) :=
  fun w => ⟨(fun _ e => nomatch e), fun g e => by cases e; exact w⟩

theorem jobReset (h : Hdr) : Statement (.jobReset h) :=
  fun w => ⟨(fun _ e => nomatch e), fun g e => by cases e; exact w⟩

theorem cellReplace (h : Hdr) (cell : Nat) : Statement (.cellReplace h cell) :=
  fun w => ⟨(fun _ e => nomatch e), fun g e => by cases e; exact (and_left w)⟩

theorem mcastSet (h : Hdr) (group : Nat) (count : Nat) (addr : Nat) : Statement (.mcastSet h group count addr) :=
  fun w => ⟨(fun _ e => nomatch e), fun g e => by cases e; exact (and_left (and_left (and_left w)))⟩

theorem objMap (h : Hdr) (p : ObjMap) : Statement (.objMap h p) :=
  fun w => ⟨(fun _ e => nomatch e), fun g e => by cases e; exact (and_left w)⟩

theorem objUnmap (h : Hdr) (obj : Nat) : Statement (.objUnmap h obj) :=
  fun w => ⟨(fun _ e => nomatch e), fun g e => by cases e; exact (and_left w)⟩

theorem placeRise (h : Hdr) (obj : Nat) (first : Nat) (count : Nat) : Statement (.placeRise h obj first count) :=
  fun w => ⟨(fun _ e => nomatch e), fun g e => by cases e; exact (and_left (and_left (and_left w)))⟩

theorem placeSink (h : Hdr) (obj : Nat) (first : Nat) (count : Nat) : Statement (.placeSink h obj first count) :=
  fun w => ⟨(fun _ e => nomatch e), fun g e => by cases e; exact (and_left (and_left (and_left w)))⟩

theorem pin (h : Hdr) (obj : Nat) : Statement (.pin h obj) :=
  fun w => ⟨(fun _ e => nomatch e), fun g e => by cases e; exact (and_left w)⟩

theorem unpin (h : Hdr) (obj : Nat) : Statement (.unpin h obj) :=
  fun w => ⟨(fun _ e => nomatch e), fun g e => by cases e; exact (and_left w)⟩

theorem winSet (h : Hdr) (win : Nat) (addr : Nat) : Statement (.winSet h win addr) :=
  fun w => ⟨(fun _ e => nomatch e), fun g e => by cases e; exact (and_left (and_left w))⟩

theorem winStart (h : Hdr) (win : Nat) : Statement (.winStart h win) :=
  fun w => ⟨(fun _ e => nomatch e), fun g e => by cases e; exact (and_left w)⟩

theorem winStop (h : Hdr) (win : Nat) : Statement (.winStop h win) :=
  fun w => ⟨(fun _ e => nomatch e), fun g e => by cases e; exact (and_left w)⟩

theorem windowCursorAdvance (job : Nat) (win : Nat) (byTime : Bool) : Statement (.windowCursorAdvance job win byTime) :=
  fun _ => ⟨(fun _ e => nomatch e), (fun _ e => nomatch e)⟩

theorem windowLateRecord (job : Nat) (win : Nat) (region : Nat) : Statement (.windowLateRecord job win region) :=
  fun _ => ⟨(fun _ e => nomatch e), (fun _ e => nomatch e)⟩

theorem windowRestart (job : Nat) (win : Nat) : Statement (.windowRestart job win) :=
  fun _ => ⟨(fun _ e => nomatch e), (fun _ e => nomatch e)⟩

theorem snapshot (h : Hdr) (p : SnapSrc) : Statement (.snapshot h p) :=
  fun w => ⟨(fun _ e => nomatch e), fun g e => by cases e; exact (and_left w)⟩

theorem drainCheck (job : Nat) : Statement (.drainCheck job) :=
  fun _ => ⟨(fun _ e => nomatch e), (fun _ e => nomatch e)⟩

theorem epochAdvance (job : Nat) : Statement (.epochAdvance job) :=
  fun _ => ⟨(fun _ e => nomatch e), (fun _ e => nomatch e)⟩

theorem stopEnd (job : Nat) : Statement (.stopEnd job) :=
  fun _ => ⟨(fun _ e => nomatch e), (fun _ e => nomatch e)⟩

theorem stopBound (job : Nat) : Statement (.stopBound job) :=
  fun _ => ⟨(fun _ e => nomatch e), (fun _ e => nomatch e)⟩

theorem imageTaken (job : Nat) (buddyOk : Bool) (nvmeOk : Bool) (readErr : Bool) : Statement (.imageTaken job buddyOk nvmeOk readErr) :=
  fun _ => ⟨(fun _ e => nomatch e), (fun _ e => nomatch e)⟩

theorem buddyImageReceive (x : Nat) (y : Nat) (z : Nat) (tag : Nat) (manifest : Bool) (digestOk : Bool) (data : List Byte) : Statement (.buddyImageReceive x y z tag manifest digestOk data) :=
  fun _ => ⟨(fun _ e => nomatch e), (fun _ e => nomatch e)⟩

theorem nvmeCompletion (job : Nat) (ok : Bool) : Statement (.nvmeCompletion job ok) :=
  fun _ => ⟨(fun _ e => nomatch e), (fun _ e => nomatch e)⟩

theorem nvmeTimeout (job : Nat) : Statement (.nvmeTimeout job) :=
  fun _ => ⟨(fun _ e => nomatch e), (fun _ e => nomatch e)⟩

theorem restore (h : Hdr) (p : SnapSrc) : Statement (.restore h p) :=
  fun w => ⟨(fun _ e => nomatch e), fun g e => by cases e; exact (and_left w)⟩

theorem restoreImage (job : Nat) (ok : Bool) (data : List Byte) : Statement (.restoreImage job ok data) :=
  fun _ => ⟨(fun _ e => nomatch e), (fun _ e => nomatch e)⟩

theorem adopt (h : Hdr) (p : SnapSrc) (fx : Nat) (fy : Nat) (fz : Nat) : Statement (.adopt h p fx fy fz) :=
  fun w => ⟨(fun _ e => nomatch e), fun g e => by cases e; exact (and_left (and_left (and_left (and_left w))))⟩

theorem boundedLoss (h : Hdr) (n : Nat) : Statement (.boundedLoss h n) :=
  fun w => ⟨(fun _ e => nomatch e), fun g e => by cases e; exact (and_left w)⟩

theorem collRun (h : Hdr) (addr : Nat) : Statement (.collRun h addr) :=
  fun w => ⟨(fun _ e => nomatch e), fun g e => by cases e; exact (and_left w)⟩

theorem collData (ring : Nat) (tag : Nat) (axis : Nat) (pos : Nat) (data : List Byte) : Statement (.collData ring tag axis pos data) :=
  fun _ => ⟨(fun _ e => nomatch e), (fun _ e => nomatch e)⟩

theorem collCtrl (ring : Nat) (tag : Nat) : Statement (.collCtrl ring tag) :=
  fun _ => ⟨(fun _ e => nomatch e), (fun _ e => nomatch e)⟩

theorem globalNormPoll (ring : Nat) (tag : Nat) : Statement (.globalNormPoll ring tag) :=
  fun _ => ⟨(fun _ e => nomatch e), (fun _ e => nomatch e)⟩

theorem collComplete (ring : Nat) (tag : Nat) : Statement (.collComplete ring tag) :=
  fun _ => ⟨(fun _ e => nomatch e), (fun _ e => nomatch e)⟩

theorem fabricConfig (h : Hdr) (addr : Nat) : Statement (.fabricConfig h addr) :=
  fun w => ⟨(fun _ e => nomatch e), fun g e => by cases e; exact (and_left w)⟩

theorem linkEnable (h : Hdr) (link : Nat) : Statement (.linkEnable h link) :=
  fun w => ⟨(fun _ e => nomatch e), fun g e => by cases e; exact (and_left w)⟩

theorem linkDisable (h : Hdr) (link : Nat) : Statement (.linkDisable h link) :=
  fun w => ⟨(fun _ e => nomatch e), fun g e => by cases e; exact (and_left w)⟩

theorem linkDisableStop (link : Nat) : Statement (.linkDisableStop link) :=
  fun _ => ⟨(fun _ e => nomatch e), (fun _ e => nomatch e)⟩

theorem setLinkShares (h : Hdr) (coll : Nat) (bulk : Nat) : Statement (.setLinkShares h coll bulk) :=
  fun w => ⟨(fun _ e => nomatch e), fun g e => by cases e; exact (and_left (and_left w))⟩

theorem setFlueShares (h : Hdr) (sel : Nat) (demand : Nat) (move : Nat) (ember : Nat) (coll : Nat) (control : Nat) : Statement (.setFlueShares h sel demand move ember coll control) :=
  fun w => ⟨(fun _ e => nomatch e), fun g e => by cases e; exact (and_left (and_left (and_left (and_left (and_left (and_left w))))))⟩

theorem releaseCancel (h : Hdr) (ring : Nat) (tag : Nat) : Statement (.releaseCancel h ring tag) :=
  fun w => ⟨(fun _ e => nomatch e), fun g e => by cases e; exact (and_left (and_left w))⟩

theorem traceConfig (h : Hdr) (die : Nat) (mode : Nat) (post : Nat) (size : Nat) : Statement (.traceConfig h die mode post size) :=
  fun w => ⟨(fun _ e => nomatch e), fun g e => by cases e; exact (and_left (and_left (and_left (and_left w))))⟩

theorem traceTrigger (h : Hdr) (mask : Nat) : Statement (.traceTrigger h mask) :=
  fun w => ⟨(fun _ e => nomatch e), fun g e => by cases e; exact (and_left w)⟩

theorem counterSelect (h : Hdr) (cell : Nat) (counter : Nat) (event : Nat) : Statement (.counterSelect h cell counter event) :=
  fun w => ⟨(fun _ e => nomatch e), fun g e => by cases e; exact (and_left (and_left (and_left w)))⟩

theorem captureSet (h : Hdr) (slot : Nat) (engine : Nat) (addr : Nat) : Statement (.captureSet h slot engine addr) :=
  fun w => ⟨(fun _ e => nomatch e), fun g e => by cases e; exact (and_left (and_left (and_left w)))⟩

theorem captureClear (h : Hdr) (slot : Nat) : Statement (.captureClear h slot) :=
  fun w => ⟨(fun _ e => nomatch e), fun g e => by cases e; exact (and_left w)⟩

theorem captureStart (job : Nat) (slot : Nat) (engine : Nat) : Statement (.captureStart job slot engine) :=
  fun _ => ⟨(fun _ e => nomatch e), (fun _ e => nomatch e)⟩

theorem captureComplete (job : Nat) (slot : Nat) : Statement (.captureComplete job slot) :=
  fun _ => ⟨(fun _ e => nomatch e), (fun _ e => nomatch e)⟩

theorem ashClear (h : Hdr) (auth : List Byte) : Statement (.ashClear h auth) :=
  fun w => ⟨(fun _ e => nomatch e), fun g e => by cases e; exact (and_left w)⟩

theorem ringCreate (h : Hdr) (ring : Nat) (sz : Nat) (c : Nat) (subBase : Nat) (cmpBase : Nat) : Statement (.ringCreate h ring sz c subBase cmpBase) :=
  fun w => ⟨(fun _ e => nomatch e), fun g e => by cases e; exact (and_left (and_left (and_left (and_left (and_left w)))))⟩

theorem ringDelete (h : Hdr) (ring : Nat) : Statement (.ringDelete h ring) :=
  fun w => ⟨(fun _ e => nomatch e), fun g e => by cases e; exact (and_left w)⟩

theorem fwStageHeader (h : Hdr) (off : Nat) (len : Nat) (src : Nat) (body : List Byte) : Statement (.fwStageHeader h off len src body) :=
  fun w => ⟨(fun _ e => nomatch e), fun g e => by cases e; exact (and_left (and_left (and_left w)))⟩

theorem fwStageBody (h : Hdr) (off : Nat) (len : Nat) (src : Nat) (body : List Byte) : Statement (.fwStageBody h off len src body) :=
  fun w => ⟨(fun _ e => nomatch e), fun g e => by cases e; exact (and_left (and_left (and_left w)))⟩

theorem fwStageFinish (h : Hdr) : Statement (.fwStageFinish h) :=
  fun w => ⟨(fun _ e => nomatch e), fun g e => by cases e; exact w⟩

theorem fwConfirm (h : Hdr) : Statement (.fwConfirm h) :=
  fun w => ⟨(fun _ e => nomatch e), fun g e => by cases e; exact w⟩

theorem fenceClear (h : Hdr) (phys : Nat) (auth : List Byte) : Statement (.fenceClear h phys auth) :=
  fun w => ⟨(fun _ e => nomatch e), fun g e => by cases e; exact (and_left (and_left w))⟩

theorem deviceReset (h : Hdr) (force : Nat) : Statement (.deviceReset h force) :=
  fun w => ⟨(fun _ e => nomatch e), fun g e => by cases e; exact (and_left w)⟩

theorem powerLimit (h : Hdr) (watts : Nat) : Statement (.powerLimit h watts) :=
  fun w => ⟨(fun _ e => nomatch e), fun g e => by cases e; exact (and_left w)⟩

theorem placeQuery (h : Hdr) (obj : Nat) (first : Nat) (count : Nat) (buf : Nat) : Statement (.placeQuery h obj first count buf) :=
  fun w => ⟨(fun _ e => nomatch e), fun g e => by cases e; exact (and_left (and_left (and_left (and_left w))))⟩

theorem jobQuery (h : Hdr) (buf : Nat) : Statement (.jobQuery h buf) :=
  fun w => ⟨(fun _ e => nomatch e), fun g e => by cases e; exact (and_left w)⟩

theorem timeQuery (h : Hdr) : Statement (.timeQuery h) :=
  fun w => ⟨(fun _ e => nomatch e), fun g e => by cases e; exact w⟩

theorem regRead (h : Hdr) (addr : Nat) (words : Nat) (buf : Nat) : Statement (.regRead h addr words buf) :=
  fun w => ⟨(fun _ e => nomatch e), fun g e => by cases e; exact (and_left (and_left (and_left w)))⟩

theorem snapQuery (h : Hdr) (buf : Nat) : Statement (.snapQuery h buf) :=
  fun w => ⟨(fun _ e => nomatch e), fun g e => by cases e; exact (and_left w)⟩

theorem ringQuery (h : Hdr) (ring : Nat) : Statement (.ringQuery h ring) :=
  fun w => ⟨(fun _ e => nomatch e), fun g e => by cases e; exact (and_left w)⟩

theorem mgmtDatagram (ip : Nat) (port : Nat) (data : List Byte) : Statement (.mgmtDatagram ip port data) :=
  fun _ => ⟨(fun _ e => nomatch e), (fun _ e => nomatch e)⟩

theorem controlMsg (x : Nat) (y : Nat) (z : Nat) (jobTag : Nat) (data : List Byte) : Statement (.controlMsg x y z jobTag data) :=
  fun _ => ⟨(fun _ e => nomatch e), (fun _ e => nomatch e)⟩

theorem arpRequest (target : Nat) : Statement (.arpRequest target) :=
  fun _ => ⟨(fun _ e => nomatch e), (fun _ e => nomatch e)⟩

theorem icmpEcho (dst : Nat) (data : List Byte) : Statement (.icmpEcho dst data) :=
  fun _ => ⟨(fun _ e => nomatch e), (fun _ e => nomatch e)⟩

theorem ptpMessage (gmTime : Nat) : Statement (.ptpMessage gmTime) :=
  fun _ => ⟨(fun _ e => nomatch e), (fun _ e => nomatch e)⟩

theorem flitReceive (link : Nat) (flit : List Byte) (fecOk : Bool) : Statement (.flitReceive link flit fecOk) :=
  fun _ => ⟨(fun _ e => nomatch e), (fun _ e => nomatch e)⟩

theorem nak (link : Nat) (seq : Nat) : Statement (.nak link seq) :=
  fun _ => ⟨(fun _ e => nomatch e), (fun _ e => nomatch e)⟩

theorem linkSilence (link : Nat) : Statement (.linkSilence link) :=
  fun _ => ⟨(fun _ e => nomatch e), (fun _ e => nomatch e)⟩

theorem retrainDone (link : Nat) : Statement (.retrainDone link) :=
  fun _ => ⟨(fun _ e => nomatch e), (fun _ e => nomatch e)⟩

theorem retrainTimeout (link : Nat) : Statement (.retrainTimeout link) :=
  fun _ => ⟨(fun _ e => nomatch e), (fun _ e => nomatch e)⟩

theorem detectSignal (link : Nat) : Statement (.detectSignal link) :=
  fun _ => ⟨(fun _ e => nomatch e), (fun _ e => nomatch e)⟩

theorem detectTimeout (link : Nat) : Statement (.detectTimeout link) :=
  fun _ => ⟨(fun _ e => nomatch e), (fun _ e => nomatch e)⟩

theorem trainDone (link : Nat) : Statement (.trainDone link) :=
  fun _ => ⟨(fun _ e => nomatch e), (fun _ e => nomatch e)⟩

theorem trainTimeout (link : Nat) : Statement (.trainTimeout link) :=
  fun _ => ⟨(fun _ e => nomatch e), (fun _ e => nomatch e)⟩

theorem negotiateDone (link : Nat) (px : Nat) (py : Nat) (pz : Nat) (plink : Nat) (pgroup : Nat) (serial : Nat) : Statement (.negotiateDone link px py pz plink pgroup serial) :=
  fun _ => ⟨(fun _ e => nomatch e), (fun _ e => nomatch e)⟩

theorem write (x : Nat) (y : Nat) (z : Nat) (word : Nat) (jobTag : Nat) (data : List Byte) (item : Nat) (itemLen : Nat) (sem : Nat) : Statement (.write x y z word jobTag data item itemLen sem) :=
  fun _ => ⟨(fun _ e => nomatch e), (fun _ e => nomatch e)⟩

theorem undeliverable (x : Nat) (y : Nat) (z : Nat) : Statement (.undeliverable x y z) :=
  fun _ => ⟨(fun _ e => nomatch e), (fun _ e => nomatch e)⟩

theorem writeAckTimeout (x : Nat) (y : Nat) (z : Nat) : Statement (.writeAckTimeout x y z) :=
  fun _ => ⟨(fun _ e => nomatch e), (fun _ e => nomatch e)⟩

theorem timeSym (link : Nat) (tTx : Nat) (roundPs : Nat) (turnPs : Nat) (hops : Nat) (master : Nat) : Statement (.timeSym link tTx roundPs turnPs hops master) :=
  fun _ => ⟨(fun _ e => nomatch e), (fun _ e => nomatch e)⟩

theorem timeSymSend (link : Nat) : Statement (.timeSymSend link) :=
  fun _ => ⟨(fun _ e => nomatch e), (fun _ e => nomatch e)⟩

theorem holdoverEntry : Statement (.holdoverEntry) :=
  fun _ => ⟨(fun _ e => nomatch e), (fun _ e => nomatch e)⟩

theorem unlockedEntry : Statement (.unlockedEntry) :=
  fun _ => ⟨(fun _ e => nomatch e), (fun _ e => nomatch e)⟩

theorem standbyTakeover : Statement (.standbyTakeover) :=
  fun _ => ⟨(fun _ e => nomatch e), (fun _ e => nomatch e)⟩

theorem ppsMark : Statement (.ppsMark) :=
  fun _ => ⟨(fun _ e => nomatch e), (fun _ e => nomatch e)⟩

theorem sourceLoss : Statement (.sourceLoss) :=
  fun _ => ⟨(fun _ e => nomatch e), (fun _ e => nomatch e)⟩

theorem sourceReturn : Statement (.sourceReturn) :=
  fun _ => ⟨(fun _ e => nomatch e), (fun _ e => nomatch e)⟩

theorem coreFault (lcn : Nat) (code : Nat) (unit : Nat) : Statement (.coreFault lcn code unit) :=
  fun h => ⟨fun m e => by cases e; exact of_decide_eq_true (and_left (and_left h)), (fun _ e => nomatch e)⟩

theorem routerFault (lcn : Nat) : Statement (.routerFault lcn) :=
  fun h => ⟨fun m e => by cases e; exact of_decide_eq_true h, (fun _ e => nomatch e)⟩

theorem moverFault (mover : Nat) : Statement (.moverFault mover) :=
  fun _ => ⟨(fun _ e => nomatch e), (fun _ e => nomatch e)⟩

theorem engineFault (kind : Nat) (num : Nat) : Statement (.engineFault kind num) :=
  fun _ => ⟨(fun _ e => nomatch e), (fun _ e => nomatch e)⟩

theorem wardenHeartbeat (warden : Nat) : Statement (.wardenHeartbeat warden) :=
  fun _ => ⟨(fun _ e => nomatch e), (fun _ e => nomatch e)⟩

theorem wardenFault (warden : Nat) (cause : Nat) : Statement (.wardenFault warden cause) :=
  fun _ => ⟨(fun _ e => nomatch e), (fun _ e => nomatch e)⟩

theorem deviceFatal (code : Nat) (die : Nat) (unit : Nat) : Statement (.deviceFatal code die unit) :=
  fun _ => ⟨(fun _ e => nomatch e), (fun _ e => nomatch e)⟩

theorem traceRecordWrite (die : Nat) (lcn : Nat) : Statement (.traceRecordWrite die lcn) :=
  fun h => ⟨fun m e => by cases e; exact of_decide_eq_true (and_left h), (fun _ e => nomatch e)⟩

theorem ashFlashCopy : Statement (.ashFlashCopy) :=
  fun _ => ⟨(fun _ e => nomatch e), (fun _ e => nomatch e)⟩

theorem ashViewWrite : Statement (.ashViewWrite) :=
  fun _ => ⟨(fun _ e => nomatch e), (fun _ e => nomatch e)⟩

theorem evtRfRead (lcn : Nat) : Statement (.evtRfRead lcn) :=
  fun h => ⟨fun m e => by cases e; exact of_decide_eq_true h, (fun _ e => nomatch e)⟩

theorem devRfRead (k : Nat) : Statement (.devRfRead k) :=
  fun _ => ⟨(fun _ e => nomatch e), (fun _ e => nomatch e)⟩

theorem registerWrite (addr : Nat) (width : Nat) (value : Nat) : Statement (.registerWrite addr width value) :=
  fun _ => ⟨(fun _ e => nomatch e), (fun _ e => nomatch e)⟩

theorem hostAccess (store : Bool) (addr : Nat) (width : Nat) (data : List Byte) (err : Nat) : Statement (.hostAccess store addr width data err) :=
  fun _ => ⟨(fun _ e => nomatch e), (fun _ e => nomatch e)⟩

theorem pcieInbound (fwOwned : Bool) (store : Bool) (addr : Nat) (len : Nat) (data : List Byte) (err : Nat) : Statement (.pcieInbound fwOwned store addr len data err) :=
  fun _ => ⟨(fun _ e => nomatch e), (fun _ e => nomatch e)⟩

theorem i3cPrivateWrite (data : List Byte) : Statement (.i3cPrivateWrite data) :=
  fun _ => ⟨(fun _ e => nomatch e), (fun _ e => nomatch e)⟩

theorem i3cPrivateRead : Statement (.i3cPrivateRead) :=
  fun _ => ⟨(fun _ e => nomatch e), (fun _ e => nomatch e)⟩

theorem setdasa (addr7 : Nat) (dyn : Nat) : Statement (.setdasa addr7 dyn) :=
  fun _ => ⟨(fun _ e => nomatch e), (fun _ e => nomatch e)⟩

theorem entdaa (dyn : Nat) : Statement (.entdaa dyn) :=
  fun _ => ⟨(fun _ e => nomatch e), (fun _ e => nomatch e)⟩

theorem powerOnReset : Statement (.powerOnReset) :=
  fun _ => ⟨(fun _ e => nomatch e), (fun _ e => nomatch e)⟩

theorem resetN (low : Bool) : Statement (.resetN low) :=
  fun _ => ⟨(fun _ e => nomatch e), (fun _ e => nomatch e)⟩

theorem pwrOkFall : Statement (.pwrOkFall) :=
  fun _ => ⟨(fun _ e => nomatch e), (fun _ e => nomatch e)⟩

theorem brownOut (rail : Nat) : Statement (.brownOut rail) :=
  fun _ => ⟨(fun _ e => nomatch e), (fun _ e => nomatch e)⟩

theorem overvoltage (rail : Nat) : Statement (.overvoltage rail) :=
  fun _ => ⟨(fun _ e => nomatch e), (fun _ e => nomatch e)⟩

theorem kindlingStart (b : BootEnv) : Statement (.kindlingStart b) :=
  fun _ => ⟨(fun _ e => nomatch e), (fun _ e => nomatch e)⟩

theorem startWatchdog : Statement (.startWatchdog) :=
  fun _ => ⟨(fun _ e => nomatch e), (fun _ e => nomatch e)⟩

theorem confirmWatchdog : Statement (.confirmWatchdog) :=
  fun _ => ⟨(fun _ e => nomatch e), (fun _ e => nomatch e)⟩

theorem announce : Statement (.announce) :=
  fun _ => ⟨(fun _ e => nomatch e), (fun _ e => nomatch e)⟩

theorem header (ip : Nat) (port : Nat) (seq : Nat) (data : List Byte) : Statement (.header ip port seq data) :=
  fun _ => ⟨(fun _ e => nomatch e), (fun _ e => nomatch e)⟩

theorem body (ip : Nat) (port : Nat) (seq : Nat) (off : Nat) (data : List Byte) : Statement (.body ip port seq off data) :=
  fun _ => ⟨(fun _ e => nomatch e), (fun _ e => nomatch e)⟩

theorem finish (ip : Nat) (port : Nat) (seq : Nat) (b : BootEnv) : Statement (.finish ip port seq b) :=
  fun _ => ⟨(fun _ e => nomatch e), (fun _ e => nomatch e)⟩

theorem settings (ip : Nat) (port : Nat) (seq : Nat) (data : List Byte) : Statement (.settings ip port seq data) :=
  fun _ => ⟨(fun _ e => nomatch e), (fun _ e => nomatch e)⟩

theorem boot (ip : Nat) (port : Nat) (seq : Nat) (b : BootEnv) : Statement (.boot ip port seq b) :=
  fun _ => ⟨(fun _ e => nomatch e), (fun _ e => nomatch e)⟩

theorem recoverySessionTimeout : Statement (.recoverySessionTimeout) :=
  fun _ => ⟨(fun _ e => nomatch e), (fun _ e => nomatch e)⟩

theorem recoveryTimeout (b : BootEnv) : Statement (.recoveryTimeout b) :=
  fun _ => ⟨(fun _ e => nomatch e), (fun _ e => nomatch e)⟩

theorem aliveToggle : Statement (.aliveToggle) :=
  fun _ => ⟨(fun _ e => nomatch e), (fun _ e => nomatch e)⟩

theorem powerSample (watts : Nat) : Statement (.powerSample watts) :=
  fun _ => ⟨(fun _ e => nomatch e), (fun _ e => nomatch e)⟩

theorem powerLoop : Statement (.powerLoop) :=
  fun _ => ⟨(fun _ e => nomatch e), (fun _ e => nomatch e)⟩

theorem sensorSample (temps : List Int) : Statement (.sensorSample temps) :=
  fun _ => ⟨(fun _ e => nomatch e), (fun _ e => nomatch e)⟩

theorem thermalStep (die : Nat) (rise : Bool) : Statement (.thermalStep die rise) :=
  fun _ => ⟨(fun _ e => nomatch e), (fun _ e => nomatch e)⟩

theorem supplyDip (rail : Nat) (mv : Nat) : Statement (.supplyDip rail mv) :=
  fun _ => ⟨(fun _ e => nomatch e), (fun _ e => nomatch e)⟩

theorem dipDecay (die : Nat) : Statement (.dipDecay die) :=
  fun _ => ⟨(fun _ e => nomatch e), (fun _ e => nomatch e)⟩

theorem refClkLoss : Statement (.refClkLoss) :=
  fun _ => ⟨(fun _ e => nomatch e), (fun _ e => nomatch e)⟩

theorem lrefLoss (east : Bool) : Statement (.lrefLoss east) :=
  fun _ => ⟨(fun _ e => nomatch e), (fun _ e => nomatch e)⟩

theorem pcieRefclkLoss : Statement (.pcieRefclkLoss) :=
  fun _ => ⟨(fun _ e => nomatch e), (fun _ e => nomatch e)⟩

theorem trefLoss : Statement (.trefLoss) :=
  fun _ => ⟨(fun _ e => nomatch e), (fun _ e => nomatch e)⟩

theorem cellRestoreComplete (job : Nat) (cell : Nat) : Statement (.cellRestoreComplete job cell) :=
  fun _ => ⟨(fun _ e => nomatch e), (fun _ e => nomatch e)⟩

theorem railReturnAboveWarning (rail : Nat) : Statement (.railReturnAboveWarning rail) :=
  fun _ => ⟨(fun _ e => nomatch e), (fun _ e => nomatch e)⟩

theorem refClkReturn : Statement (.refClkReturn) :=
  fun _ => ⟨(fun _ e => nomatch e), (fun _ e => nomatch e)⟩

theorem flashOperationComplete : Statement (.flashOperationComplete) :=
  fun _ => ⟨(fun _ e => nomatch e), (fun _ e => nomatch e)⟩

end Sys2Proof.Laws.Operands
end

