-- ==== Sys2Proof/Laws/Replies.lean ====
section
/-! SUPPORT. Where the firmware reads and writes plain memory of the host region, and a ring after a change of it: what the end of a command
rests on. -/

namespace Sys2Proof.Machine

namespace State

/-- The host region (R207). -/
theorem region_host {s : State} {a : Nat} (h : s.region a = .host) : 0x080000000000 ≤ a ∧ a < 0x090000000000 := by
  unfold region at h
  split at h
  · cases h
  split at h
  · simp only [] at h; split at h
    · split at h <;> cases h
    · cases h
  split at h
  · cases h
  split at h
  · rename_i g; simp only [Bool.and_eq_true, decide_eq_true_eq] at g; omega
  split at h
  · cases h
  split at h <;> cases h

theorem Plain.mono {s : State} {a n b m : Nat} (h : s.Plain a n) (ha : a ≤ b) (hb : b + m ≤ a + n) : s.Plain b m := by
  intro k hk
  have := h (b - a + k) (by omega)
  rwa [show a + (b - a + k) = b + k by omega] at this

/-- The addresses that a block-wise access visits lie in it. -/
theorem mem_blockStarts {a n x : Nat} (hn : 0 < n) (hx : x ∈ blockStarts a n) : a ≤ x ∧ x < a + n := by
  rcases List.mem_cons.mp hx with rfl | hx
  · omega
  · obtain ⟨hx, h2⟩ := List.mem_filter.mp hx
    obtain ⟨i, _, rfl⟩ := List.mem_map.mp hx
    simp only [decide_eq_true_eq] at h2
    omega

/-- Every address of plain memory lies in the host region, in a block that is not poisoned. -/
theorem Plain.at_ {s : State} {a n x : Nat} (h : s.Plain a n) (h1 : a ≤ x) (h2 : x < a + n) : s.region x = .host ∧ s.poisoned x = false := by
  have := h (x - a) (by omega)
  rwa [show a + (x - a) = x by omega] at this

/-- Plain memory can be read (R208, R229). -/
theorem fwRead_plain {s : State} {a n : Nat} (h : s.Plain a n) (hn : 0 < n) : s.fwRead a n = some (s.mem.read a n) := by
  unfold fwRead
  rw [if_pos]
  · rw [(h.at_ (Nat.le_refl a) (by omega)).1]
  · rw [List.all_eq_true]
    intro x hx
    obtain ⟨h1, h2⟩ := mem_blockStarts hn hx
    obtain ⟨r, p⟩ := h.at_ h1 h2
    simp [r, p]

/-- A write of plain memory finds no block of the placement engine (R240). -/
theorem readyBlock_plain {s : State} {x : Nat} (h : s.region x = .host) : s.readyBlock x = (s, false) := by
  unfold readyBlock; rw [h]

/-- Plain memory can be written, and nothing but its bytes changes (R208, R229). -/
theorem fwPut_plain {s : State} {a : Nat} {bs : List Byte} (ack : Option AckTo) (h : s.Plain a bs.length) (hn : bs ≠ []) :
    s.fwPut a bs ack = some ({ s with mem := s.mem.write a bs }, false) := by
  have hl : 0 < bs.length := List.length_pos_iff.mpr hn
  have r0 := region_host (h 0 hl).1
  have stay : ∀ l : List Nat, (∀ x ∈ l, s.region x = .host) →
      l.foldl (fun (acc : State × List Nat) x => let q := acc.1.readyBlock x; (q.1, if q.2 then acc.2 ++ [x] else acc.2)) (s, []) = (s, []) := by
    intro l
    induction l with
    | nil => intro _; rfl
    | cons x l ih =>
      intro hl
      rw [List.foldl_cons, readyBlock_plain (hl x List.mem_cons_self)]
      exact ih fun y hy => hl y (List.mem_cons_of_mem _ hy)
  have e := stay (blockStarts a bs.length) fun x hx => (h.at_ (mem_blockStarts hl hx).1 (mem_blockStarts hl hx).2).1
  unfold fwPut
  rw [if_neg (by simp only [decide_eq_true_eq, Bool.and_eq_true]; omega), fwRead_plain h hl]
  simp only [e, List.isEmpty_nil, if_true, putBytes, (h.at_ (Nat.le_refl a) (by omega)).1]

/-- The same, where no other device waits for it. -/
theorem fwWrite_plain {s : State} {a : Nat} {bs : List Byte} (h : s.Plain a bs.length) (hn : bs ≠ []) :
    s.fwWrite a bs = some { s with mem := s.mem.write a bs } := by
  unfold fwWrite; rw [fwPut_plain none h hn]; rfl

theorem tryWrite_plain {s : State} {a : Nat} {bs : List Byte} (h : s.Plain a bs.length) (hn : bs ≠ []) :
    s.tryWrite a bs = { s with mem := s.mem.write a bs } := by
  unfold tryWrite; rw [fwWrite_plain h hn]; rfl

/-- Memory and the rings bear on no address. -/
theorem plain_of_same {s t : State} {a n : Nat} (h : s.Plain a n) (e : t = { s with mem := t.mem, rings := t.rings, outs := t.outs, dev := t.dev, nextUid := t.nextUid, sent := t.sent, mgmtSeen := t.mgmtSeen, jobs := t.jobs, time := t.time }) : t.Plain a n := by
  rw [e]; exact h

/-- The changed ring is found, changed. -/
theorem ring?_modRing {s : State} {n : Nat} {f : Ring → Ring} (hf : ∀ r, (f r).num = r.num) :
    (s.modRing n f).ring? n = (s.ring? n).map f := by
  unfold ring? modRing
  show List.find? _ (List.map _ s.rings) = _
  rw [List.find?_map]
  have e : ((fun r : Ring => r.num == n) ∘ fun r => if r.num == n then f r else r) = fun r => r.num == n := by
    funext r
    simp only [Function.comp_apply]
    split
    · rw [hf]
    · rfl
  rw [e]
  cases h : s.rings.find? fun r => r.num == n with
  | none => rfl
  | some r => simp only [Option.map_some, List.find?_some h, if_true]

/-- Other rings stay. -/
theorem ring?_modRing_of_ne {s : State} {n m : Nat} {f : Ring → Ring} (hf : ∀ r, (f r).num = r.num) (h : m ≠ n) :
    (s.modRing n f).ring? m = s.ring? m := by
  unfold ring? modRing
  show List.find? _ (List.map _ s.rings) = _
  rw [List.find?_map]
  have e : ((fun r : Ring => r.num == m) ∘ fun r => if r.num == n then f r else r) = fun r => r.num == m := by
    funext r
    simp only [Function.comp_apply]
    split
    · rw [hf]
    · rfl
  rw [e]
  cases g : s.rings.find? fun r => r.num == m with
  | none => rfl
  | some r =>
    have : (r.num == n) = false := by
      have := List.find?_some g
      simp only [beq_iff_eq] at this
      simp [this, h]
    simp only [Option.map_some, this, Bool.false_eq_true, if_false]

end State
end Sys2Proof.Machine
end

