-- ==== Sys2Proof/Laws/State.lean ====
section
/-! SUPPORT. What each update of the state changes, field by field: no later proof unfolds a record update. -/

namespace Sys2Proof.Machine
namespace State

/-! `modCore` changes the cores and nothing else. -/

@[simp] theorem modCore_pending (s : State) (n : Nat) (f : Core → Core) : (s.modCore n f).pending = s.pending := rfl
@[simp] theorem modCore_free (s : State) (n : Nat) (f : Core → Core) : (s.modCore n f).free = s.free := rfl
@[simp] theorem modCore_now (s : State) (n : Nat) (f : Core → Core) : (s.modCore n f).now = s.now := rfl
@[simp] theorem modCore_clockAt (s : State) (n : Nat) (f : Core → Core) : (s.modCore n f).clockAt = s.clockAt := rfl
@[simp] theorem modCore_mtime (s : State) (n : Nat) (f : Core → Core) : (s.modCore n f).mtime = s.mtime := rfl
@[simp] theorem modCore_fuses (s : State) (n : Nat) (f : Core → Core) : (s.modCore n f).fuses = s.fuses := rfl
@[simp] theorem modCore_pins (s : State) (n : Nat) (f : Core → Core) : (s.modCore n f).pins = s.pins := rfl
@[simp] theorem modCore_inReset (s : State) (n : Nat) (f : Core → Core) : (s.modCore n f).inReset = s.inReset := rfl
@[simp] theorem modCore_cores (s : State) (n : Nat) (f : Core → Core) : (s.modCore n f).cores = modAt s.cores n f := rfl
@[simp] theorem modCore_availGen (s : State) (n : Nat) (f : Core → Core) : (s.modCore n f).availGen = s.availGen := rfl
@[simp] theorem modCore_mem (s : State) (n : Nat) (f : Core → Core) : (s.modCore n f).mem = s.mem := rfl
@[simp] theorem modCore_blks (s : State) (n : Nat) (f : Core → Core) : (s.modCore n f).blks = s.blks := rfl
@[simp] theorem modCore_objs (s : State) (n : Nat) (f : Core → Core) : (s.modCore n f).objs = s.objs := rfl
@[simp] theorem modCore_intents (s : State) (n : Nat) (f : Core → Core) : (s.modCore n f).intents = s.intents := rfl
@[simp] theorem modCore_moves (s : State) (n : Nat) (f : Core → Core) : (s.modCore n f).moves = s.moves := rfl
@[simp] theorem modCore_moverFailed (s : State) (n : Nat) (f : Core → Core) : (s.modCore n f).moverFailed = s.moverFailed := rfl
@[simp] theorem modCore_moveAborted (s : State) (n : Nat) (f : Core → Core) : (s.modCore n f).moveAborted = s.moveAborted := rfl
@[simp] theorem modCore_poison (s : State) (n : Nat) (f : Core → Core) : (s.modCore n f).poison = s.poison := rfl
@[simp] theorem modCore_memReg (s : State) (n : Nat) (f : Core → Core) : (s.modCore n f).memReg = s.memReg := rfl
@[simp] theorem modCore_kept (s : State) (n : Nat) (f : Core → Core) : (s.modCore n f).kept = s.kept := rfl
@[simp] theorem modCore_oldFrames (s : State) (n : Nat) (f : Core → Core) : (s.modCore n f).oldFrames = s.oldFrames := rfl
@[simp] theorem modCore_stalled (s : State) (n : Nat) (f : Core → Core) : (s.modCore n f).stalled = s.stalled := rfl
@[simp] theorem modCore_reserveKept (s : State) (n : Nat) (f : Core → Core) : (s.modCore n f).reserveKept = s.reserveKept := rfl
@[simp] theorem modCore_reserve (s : State) (n : Nat) (f : Core → Core) : (s.modCore n f).reserve = s.reserve := rfl
@[simp] theorem modCore_jobs (s : State) (n : Nat) (f : Core → Core) : (s.modCore n f).jobs = s.jobs := rfl
@[simp] theorem modCore_controls (s : State) (n : Nat) (f : Core → Core) : (s.modCore n f).controls = s.controls := rfl
@[simp] theorem modCore_loads (s : State) (n : Nat) (f : Core → Core) : (s.modCore n f).loads = s.loads := rfl
@[simp] theorem modCore_outs (s : State) (n : Nat) (f : Core → Core) : (s.modCore n f).outs = s.outs := rfl
@[simp] theorem modCore_nextUid (s : State) (n : Nat) (f : Core → Core) : (s.modCore n f).nextUid = s.nextUid := rfl
@[simp] theorem modCore_waitq (s : State) (n : Nat) (f : Core → Core) : (s.modCore n f).waitq = s.waitq := rfl
@[simp] theorem modCore_rings (s : State) (n : Nat) (f : Core → Core) : (s.modCore n f).rings = s.rings := rfl
@[simp] theorem modCore_sent (s : State) (n : Nat) (f : Core → Core) : (s.modCore n f).sent = s.sent := rfl
@[simp] theorem modCore_mgmtSeen (s : State) (n : Nat) (f : Core → Core) : (s.modCore n f).mgmtSeen = s.mgmtSeen := rfl
@[simp] theorem modCore_peerReplies (s : State) (n : Nat) (f : Core → Core) : (s.modCore n f).peerReplies = s.peerReplies := rfl
@[simp] theorem modCore_packets (s : State) (n : Nat) (f : Core → Core) : (s.modCore n f).packets = s.packets := rfl
@[simp] theorem modCore_delivered (s : State) (n : Nat) (f : Core → Core) : (s.modCore n f).delivered = s.delivered := rfl
@[simp] theorem modCore_links (s : State) (n : Nat) (f : Core → Core) : (s.modCore n f).links = s.links := rfl
@[simp] theorem modCore_fab (s : State) (n : Nat) (f : Core → Core) : (s.modCore n f).fab = s.fab := rfl
@[simp] theorem modCore_shareColl (s : State) (n : Nat) (f : Core → Core) : (s.modCore n f).shareColl = s.shareColl := rfl
@[simp] theorem modCore_shareBulk (s : State) (n : Nat) (f : Core → Core) : (s.modCore n f).shareBulk = s.shareBulk := rfl
@[simp] theorem modCore_shareNext (s : State) (n : Nat) (f : Core → Core) : (s.modCore n f).shareNext = s.shareNext := rfl
@[simp] theorem modCore_nseqNext (s : State) (n : Nat) (f : Core → Core) : (s.modCore n f).nseqNext = s.nseqNext := rfl
@[simp] theorem modCore_nseqSeen (s : State) (n : Nat) (f : Core → Core) : (s.modCore n f).nseqSeen = s.nseqSeen := rfl
@[simp] theorem modCore_unreachCnt (s : State) (n : Nat) (f : Core → Core) : (s.modCore n f).unreachCnt = s.unreachCnt := rfl
@[simp] theorem modCore_escape (s : State) (n : Nat) (f : Core → Core) : (s.modCore n f).escape = s.escape := rfl
@[simp] theorem modCore_flueCore (s : State) (n : Nat) (f : Core → Core) : (s.modCore n f).flueCore = s.flueCore := rfl
@[simp] theorem modCore_fluePort (s : State) (n : Nat) (f : Core → Core) : (s.modCore n f).fluePort = s.fluePort := rfl
@[simp] theorem modCore_flueNext (s : State) (n : Nat) (f : Core → Core) : (s.modCore n f).flueNext = s.flueNext := rfl
@[simp] theorem modCore_engines (s : State) (n : Nat) (f : Core → Core) : (s.modCore n f).engines = s.engines := rfl
@[simp] theorem modCore_colls (s : State) (n : Nat) (f : Core → Core) : (s.modCore n f).colls = s.colls := rfl
@[simp] theorem modCore_time (s : State) (n : Nat) (f : Core → Core) : (s.modCore n f).time = s.time := rfl
@[simp] theorem modCore_dev (s : State) (n : Nat) (f : Core → Core) : (s.modCore n f).dev = s.dev := rfl
@[simp] theorem modCore_trcs (s : State) (n : Nat) (f : Core → Core) : (s.modCore n f).trcs = s.trcs := rfl
@[simp] theorem modCore_capEng (s : State) (n : Nat) (f : Core → Core) : (s.modCore n f).capEng = s.capEng := rfl
@[simp] theorem modCore_ash (s : State) (n : Nat) (f : Core → Core) : (s.modCore n f).ash = s.ash := rfl
@[simp] theorem modCore_digestFailed (s : State) (n : Nat) (f : Core → Core) : (s.modCore n f).digestFailed = s.digestFailed := rfl
@[simp] theorem modCore_store (s : State) (n : Nat) (f : Core → Core) : (s.modCore n f).store = s.store := rfl
@[simp] theorem modCore_fw (s : State) (n : Nat) (f : Core → Core) : (s.modCore n f).fw = s.fw := rfl
@[simp] theorem modCore_flash (s : State) (n : Nat) (f : Core → Core) : (s.modCore n f).flash = s.flash := rfl
@[simp] theorem modCore_fenceList (s : State) (n : Nat) (f : Core → Core) : (s.modCore n f).fenceList = s.fenceList := rfl
@[simp] theorem modCore_flashOps (s : State) (n : Nat) (f : Core → Core) : (s.modCore n f).flashOps = s.flashOps := rfl
@[simp] theorem modCore_recovery (s : State) (n : Nat) (f : Core → Core) : (s.modCore n f).recovery = s.recovery := rfl
@[simp] theorem modCore_power (s : State) (n : Nat) (f : Core → Core) : (s.modCore n f).power = s.power := rfl
@[simp] theorem modCore_i3c (s : State) (n : Nat) (f : Core → Core) : (s.modCore n f).i3c = s.i3c := rfl
@[simp] theorem modCore_pcie (s : State) (n : Nat) (f : Core → Core) : (s.modCore n f).pcie = s.pcie := rfl
@[simp] theorem modCore_wardens (s : State) (n : Nat) (f : Core → Core) : (s.modCore n f).wardens = s.wardens := rfl

/-! `modJob` changes the job contexts and nothing else. -/

@[simp] theorem modJob_pending (s : State) (j : Nat) (f : Job → Job) : (s.modJob j f).pending = s.pending := rfl
@[simp] theorem modJob_free (s : State) (j : Nat) (f : Job → Job) : (s.modJob j f).free = s.free := rfl
@[simp] theorem modJob_now (s : State) (j : Nat) (f : Job → Job) : (s.modJob j f).now = s.now := rfl
@[simp] theorem modJob_clockAt (s : State) (j : Nat) (f : Job → Job) : (s.modJob j f).clockAt = s.clockAt := rfl
@[simp] theorem modJob_mtime (s : State) (j : Nat) (f : Job → Job) : (s.modJob j f).mtime = s.mtime := rfl
@[simp] theorem modJob_fuses (s : State) (j : Nat) (f : Job → Job) : (s.modJob j f).fuses = s.fuses := rfl
@[simp] theorem modJob_pins (s : State) (j : Nat) (f : Job → Job) : (s.modJob j f).pins = s.pins := rfl
@[simp] theorem modJob_inReset (s : State) (j : Nat) (f : Job → Job) : (s.modJob j f).inReset = s.inReset := rfl
@[simp] theorem modJob_cores (s : State) (j : Nat) (f : Job → Job) : (s.modJob j f).cores = s.cores := rfl
@[simp] theorem modJob_availGen (s : State) (j : Nat) (f : Job → Job) : (s.modJob j f).availGen = s.availGen := rfl
@[simp] theorem modJob_mem (s : State) (j : Nat) (f : Job → Job) : (s.modJob j f).mem = s.mem := rfl
@[simp] theorem modJob_blks (s : State) (j : Nat) (f : Job → Job) : (s.modJob j f).blks = s.blks := rfl
@[simp] theorem modJob_objs (s : State) (j : Nat) (f : Job → Job) : (s.modJob j f).objs = s.objs := rfl
@[simp] theorem modJob_intents (s : State) (j : Nat) (f : Job → Job) : (s.modJob j f).intents = s.intents := rfl
@[simp] theorem modJob_moves (s : State) (j : Nat) (f : Job → Job) : (s.modJob j f).moves = s.moves := rfl
@[simp] theorem modJob_moverFailed (s : State) (j : Nat) (f : Job → Job) : (s.modJob j f).moverFailed = s.moverFailed := rfl
@[simp] theorem modJob_moveAborted (s : State) (j : Nat) (f : Job → Job) : (s.modJob j f).moveAborted = s.moveAborted := rfl
@[simp] theorem modJob_poison (s : State) (j : Nat) (f : Job → Job) : (s.modJob j f).poison = s.poison := rfl
@[simp] theorem modJob_memReg (s : State) (j : Nat) (f : Job → Job) : (s.modJob j f).memReg = s.memReg := rfl
@[simp] theorem modJob_kept (s : State) (j : Nat) (f : Job → Job) : (s.modJob j f).kept = s.kept := rfl
@[simp] theorem modJob_oldFrames (s : State) (j : Nat) (f : Job → Job) : (s.modJob j f).oldFrames = s.oldFrames := rfl
@[simp] theorem modJob_stalled (s : State) (j : Nat) (f : Job → Job) : (s.modJob j f).stalled = s.stalled := rfl
@[simp] theorem modJob_reserveKept (s : State) (j : Nat) (f : Job → Job) : (s.modJob j f).reserveKept = s.reserveKept := rfl
@[simp] theorem modJob_reserve (s : State) (j : Nat) (f : Job → Job) : (s.modJob j f).reserve = s.reserve := rfl
@[simp] theorem modJob_jobs (s : State) (j : Nat) (f : Job → Job) : (s.modJob j f).jobs = modAt s.jobs j f := rfl
@[simp] theorem modJob_controls (s : State) (j : Nat) (f : Job → Job) : (s.modJob j f).controls = s.controls := rfl
@[simp] theorem modJob_loads (s : State) (j : Nat) (f : Job → Job) : (s.modJob j f).loads = s.loads := rfl
@[simp] theorem modJob_outs (s : State) (j : Nat) (f : Job → Job) : (s.modJob j f).outs = s.outs := rfl
@[simp] theorem modJob_nextUid (s : State) (j : Nat) (f : Job → Job) : (s.modJob j f).nextUid = s.nextUid := rfl
@[simp] theorem modJob_waitq (s : State) (j : Nat) (f : Job → Job) : (s.modJob j f).waitq = s.waitq := rfl
@[simp] theorem modJob_rings (s : State) (j : Nat) (f : Job → Job) : (s.modJob j f).rings = s.rings := rfl
@[simp] theorem modJob_sent (s : State) (j : Nat) (f : Job → Job) : (s.modJob j f).sent = s.sent := rfl
@[simp] theorem modJob_mgmtSeen (s : State) (j : Nat) (f : Job → Job) : (s.modJob j f).mgmtSeen = s.mgmtSeen := rfl
@[simp] theorem modJob_peerReplies (s : State) (j : Nat) (f : Job → Job) : (s.modJob j f).peerReplies = s.peerReplies := rfl
@[simp] theorem modJob_packets (s : State) (j : Nat) (f : Job → Job) : (s.modJob j f).packets = s.packets := rfl
@[simp] theorem modJob_delivered (s : State) (j : Nat) (f : Job → Job) : (s.modJob j f).delivered = s.delivered := rfl
@[simp] theorem modJob_links (s : State) (j : Nat) (f : Job → Job) : (s.modJob j f).links = s.links := rfl
@[simp] theorem modJob_fab (s : State) (j : Nat) (f : Job → Job) : (s.modJob j f).fab = s.fab := rfl
@[simp] theorem modJob_shareColl (s : State) (j : Nat) (f : Job → Job) : (s.modJob j f).shareColl = s.shareColl := rfl
@[simp] theorem modJob_shareBulk (s : State) (j : Nat) (f : Job → Job) : (s.modJob j f).shareBulk = s.shareBulk := rfl
@[simp] theorem modJob_shareNext (s : State) (j : Nat) (f : Job → Job) : (s.modJob j f).shareNext = s.shareNext := rfl
@[simp] theorem modJob_nseqNext (s : State) (j : Nat) (f : Job → Job) : (s.modJob j f).nseqNext = s.nseqNext := rfl
@[simp] theorem modJob_nseqSeen (s : State) (j : Nat) (f : Job → Job) : (s.modJob j f).nseqSeen = s.nseqSeen := rfl
@[simp] theorem modJob_unreachCnt (s : State) (j : Nat) (f : Job → Job) : (s.modJob j f).unreachCnt = s.unreachCnt := rfl
@[simp] theorem modJob_escape (s : State) (j : Nat) (f : Job → Job) : (s.modJob j f).escape = s.escape := rfl
@[simp] theorem modJob_flueCore (s : State) (j : Nat) (f : Job → Job) : (s.modJob j f).flueCore = s.flueCore := rfl
@[simp] theorem modJob_fluePort (s : State) (j : Nat) (f : Job → Job) : (s.modJob j f).fluePort = s.fluePort := rfl
@[simp] theorem modJob_flueNext (s : State) (j : Nat) (f : Job → Job) : (s.modJob j f).flueNext = s.flueNext := rfl
@[simp] theorem modJob_engines (s : State) (j : Nat) (f : Job → Job) : (s.modJob j f).engines = s.engines := rfl
@[simp] theorem modJob_colls (s : State) (j : Nat) (f : Job → Job) : (s.modJob j f).colls = s.colls := rfl
@[simp] theorem modJob_time (s : State) (j : Nat) (f : Job → Job) : (s.modJob j f).time = s.time := rfl
@[simp] theorem modJob_dev (s : State) (j : Nat) (f : Job → Job) : (s.modJob j f).dev = s.dev := rfl
@[simp] theorem modJob_trcs (s : State) (j : Nat) (f : Job → Job) : (s.modJob j f).trcs = s.trcs := rfl
@[simp] theorem modJob_capEng (s : State) (j : Nat) (f : Job → Job) : (s.modJob j f).capEng = s.capEng := rfl
@[simp] theorem modJob_ash (s : State) (j : Nat) (f : Job → Job) : (s.modJob j f).ash = s.ash := rfl
@[simp] theorem modJob_digestFailed (s : State) (j : Nat) (f : Job → Job) : (s.modJob j f).digestFailed = s.digestFailed := rfl
@[simp] theorem modJob_store (s : State) (j : Nat) (f : Job → Job) : (s.modJob j f).store = s.store := rfl
@[simp] theorem modJob_fw (s : State) (j : Nat) (f : Job → Job) : (s.modJob j f).fw = s.fw := rfl
@[simp] theorem modJob_flash (s : State) (j : Nat) (f : Job → Job) : (s.modJob j f).flash = s.flash := rfl
@[simp] theorem modJob_fenceList (s : State) (j : Nat) (f : Job → Job) : (s.modJob j f).fenceList = s.fenceList := rfl
@[simp] theorem modJob_flashOps (s : State) (j : Nat) (f : Job → Job) : (s.modJob j f).flashOps = s.flashOps := rfl
@[simp] theorem modJob_recovery (s : State) (j : Nat) (f : Job → Job) : (s.modJob j f).recovery = s.recovery := rfl
@[simp] theorem modJob_power (s : State) (j : Nat) (f : Job → Job) : (s.modJob j f).power = s.power := rfl
@[simp] theorem modJob_i3c (s : State) (j : Nat) (f : Job → Job) : (s.modJob j f).i3c = s.i3c := rfl
@[simp] theorem modJob_pcie (s : State) (j : Nat) (f : Job → Job) : (s.modJob j f).pcie = s.pcie := rfl
@[simp] theorem modJob_wardens (s : State) (j : Nat) (f : Job → Job) : (s.modJob j f).wardens = s.wardens := rfl

/-! `modLink` changes the links and nothing else. -/

@[simp] theorem modLink_pending (s : State) (n : Nat) (f : Link → Link) : (s.modLink n f).pending = s.pending := rfl
@[simp] theorem modLink_free (s : State) (n : Nat) (f : Link → Link) : (s.modLink n f).free = s.free := rfl
@[simp] theorem modLink_now (s : State) (n : Nat) (f : Link → Link) : (s.modLink n f).now = s.now := rfl
@[simp] theorem modLink_clockAt (s : State) (n : Nat) (f : Link → Link) : (s.modLink n f).clockAt = s.clockAt := rfl
@[simp] theorem modLink_mtime (s : State) (n : Nat) (f : Link → Link) : (s.modLink n f).mtime = s.mtime := rfl
@[simp] theorem modLink_fuses (s : State) (n : Nat) (f : Link → Link) : (s.modLink n f).fuses = s.fuses := rfl
@[simp] theorem modLink_pins (s : State) (n : Nat) (f : Link → Link) : (s.modLink n f).pins = s.pins := rfl
@[simp] theorem modLink_inReset (s : State) (n : Nat) (f : Link → Link) : (s.modLink n f).inReset = s.inReset := rfl
@[simp] theorem modLink_cores (s : State) (n : Nat) (f : Link → Link) : (s.modLink n f).cores = s.cores := rfl
@[simp] theorem modLink_availGen (s : State) (n : Nat) (f : Link → Link) : (s.modLink n f).availGen = s.availGen := rfl
@[simp] theorem modLink_mem (s : State) (n : Nat) (f : Link → Link) : (s.modLink n f).mem = s.mem := rfl
@[simp] theorem modLink_blks (s : State) (n : Nat) (f : Link → Link) : (s.modLink n f).blks = s.blks := rfl
@[simp] theorem modLink_objs (s : State) (n : Nat) (f : Link → Link) : (s.modLink n f).objs = s.objs := rfl
@[simp] theorem modLink_intents (s : State) (n : Nat) (f : Link → Link) : (s.modLink n f).intents = s.intents := rfl
@[simp] theorem modLink_moves (s : State) (n : Nat) (f : Link → Link) : (s.modLink n f).moves = s.moves := rfl
@[simp] theorem modLink_moverFailed (s : State) (n : Nat) (f : Link → Link) : (s.modLink n f).moverFailed = s.moverFailed := rfl
@[simp] theorem modLink_moveAborted (s : State) (n : Nat) (f : Link → Link) : (s.modLink n f).moveAborted = s.moveAborted := rfl
@[simp] theorem modLink_poison (s : State) (n : Nat) (f : Link → Link) : (s.modLink n f).poison = s.poison := rfl
@[simp] theorem modLink_memReg (s : State) (n : Nat) (f : Link → Link) : (s.modLink n f).memReg = s.memReg := rfl
@[simp] theorem modLink_kept (s : State) (n : Nat) (f : Link → Link) : (s.modLink n f).kept = s.kept := rfl
@[simp] theorem modLink_oldFrames (s : State) (n : Nat) (f : Link → Link) : (s.modLink n f).oldFrames = s.oldFrames := rfl
@[simp] theorem modLink_stalled (s : State) (n : Nat) (f : Link → Link) : (s.modLink n f).stalled = s.stalled := rfl
@[simp] theorem modLink_reserveKept (s : State) (n : Nat) (f : Link → Link) : (s.modLink n f).reserveKept = s.reserveKept := rfl
@[simp] theorem modLink_reserve (s : State) (n : Nat) (f : Link → Link) : (s.modLink n f).reserve = s.reserve := rfl
@[simp] theorem modLink_jobs (s : State) (n : Nat) (f : Link → Link) : (s.modLink n f).jobs = s.jobs := rfl
@[simp] theorem modLink_controls (s : State) (n : Nat) (f : Link → Link) : (s.modLink n f).controls = s.controls := rfl
@[simp] theorem modLink_loads (s : State) (n : Nat) (f : Link → Link) : (s.modLink n f).loads = s.loads := rfl
@[simp] theorem modLink_outs (s : State) (n : Nat) (f : Link → Link) : (s.modLink n f).outs = s.outs := rfl
@[simp] theorem modLink_nextUid (s : State) (n : Nat) (f : Link → Link) : (s.modLink n f).nextUid = s.nextUid := rfl
@[simp] theorem modLink_waitq (s : State) (n : Nat) (f : Link → Link) : (s.modLink n f).waitq = s.waitq := rfl
@[simp] theorem modLink_rings (s : State) (n : Nat) (f : Link → Link) : (s.modLink n f).rings = s.rings := rfl
@[simp] theorem modLink_sent (s : State) (n : Nat) (f : Link → Link) : (s.modLink n f).sent = s.sent := rfl
@[simp] theorem modLink_mgmtSeen (s : State) (n : Nat) (f : Link → Link) : (s.modLink n f).mgmtSeen = s.mgmtSeen := rfl
@[simp] theorem modLink_peerReplies (s : State) (n : Nat) (f : Link → Link) : (s.modLink n f).peerReplies = s.peerReplies := rfl
@[simp] theorem modLink_packets (s : State) (n : Nat) (f : Link → Link) : (s.modLink n f).packets = s.packets := rfl
@[simp] theorem modLink_delivered (s : State) (n : Nat) (f : Link → Link) : (s.modLink n f).delivered = s.delivered := rfl
@[simp] theorem modLink_links (s : State) (n : Nat) (f : Link → Link) : (s.modLink n f).links = modAt s.links n f := rfl
@[simp] theorem modLink_fab (s : State) (n : Nat) (f : Link → Link) : (s.modLink n f).fab = s.fab := rfl
@[simp] theorem modLink_shareColl (s : State) (n : Nat) (f : Link → Link) : (s.modLink n f).shareColl = s.shareColl := rfl
@[simp] theorem modLink_shareBulk (s : State) (n : Nat) (f : Link → Link) : (s.modLink n f).shareBulk = s.shareBulk := rfl
@[simp] theorem modLink_shareNext (s : State) (n : Nat) (f : Link → Link) : (s.modLink n f).shareNext = s.shareNext := rfl
@[simp] theorem modLink_nseqNext (s : State) (n : Nat) (f : Link → Link) : (s.modLink n f).nseqNext = s.nseqNext := rfl
@[simp] theorem modLink_nseqSeen (s : State) (n : Nat) (f : Link → Link) : (s.modLink n f).nseqSeen = s.nseqSeen := rfl
@[simp] theorem modLink_unreachCnt (s : State) (n : Nat) (f : Link → Link) : (s.modLink n f).unreachCnt = s.unreachCnt := rfl
@[simp] theorem modLink_escape (s : State) (n : Nat) (f : Link → Link) : (s.modLink n f).escape = s.escape := rfl
@[simp] theorem modLink_flueCore (s : State) (n : Nat) (f : Link → Link) : (s.modLink n f).flueCore = s.flueCore := rfl
@[simp] theorem modLink_fluePort (s : State) (n : Nat) (f : Link → Link) : (s.modLink n f).fluePort = s.fluePort := rfl
@[simp] theorem modLink_flueNext (s : State) (n : Nat) (f : Link → Link) : (s.modLink n f).flueNext = s.flueNext := rfl
@[simp] theorem modLink_engines (s : State) (n : Nat) (f : Link → Link) : (s.modLink n f).engines = s.engines := rfl
@[simp] theorem modLink_colls (s : State) (n : Nat) (f : Link → Link) : (s.modLink n f).colls = s.colls := rfl
@[simp] theorem modLink_time (s : State) (n : Nat) (f : Link → Link) : (s.modLink n f).time = s.time := rfl
@[simp] theorem modLink_dev (s : State) (n : Nat) (f : Link → Link) : (s.modLink n f).dev = s.dev := rfl
@[simp] theorem modLink_trcs (s : State) (n : Nat) (f : Link → Link) : (s.modLink n f).trcs = s.trcs := rfl
@[simp] theorem modLink_capEng (s : State) (n : Nat) (f : Link → Link) : (s.modLink n f).capEng = s.capEng := rfl
@[simp] theorem modLink_ash (s : State) (n : Nat) (f : Link → Link) : (s.modLink n f).ash = s.ash := rfl
@[simp] theorem modLink_digestFailed (s : State) (n : Nat) (f : Link → Link) : (s.modLink n f).digestFailed = s.digestFailed := rfl
@[simp] theorem modLink_store (s : State) (n : Nat) (f : Link → Link) : (s.modLink n f).store = s.store := rfl
@[simp] theorem modLink_fw (s : State) (n : Nat) (f : Link → Link) : (s.modLink n f).fw = s.fw := rfl
@[simp] theorem modLink_flash (s : State) (n : Nat) (f : Link → Link) : (s.modLink n f).flash = s.flash := rfl
@[simp] theorem modLink_fenceList (s : State) (n : Nat) (f : Link → Link) : (s.modLink n f).fenceList = s.fenceList := rfl
@[simp] theorem modLink_flashOps (s : State) (n : Nat) (f : Link → Link) : (s.modLink n f).flashOps = s.flashOps := rfl
@[simp] theorem modLink_recovery (s : State) (n : Nat) (f : Link → Link) : (s.modLink n f).recovery = s.recovery := rfl
@[simp] theorem modLink_power (s : State) (n : Nat) (f : Link → Link) : (s.modLink n f).power = s.power := rfl
@[simp] theorem modLink_i3c (s : State) (n : Nat) (f : Link → Link) : (s.modLink n f).i3c = s.i3c := rfl
@[simp] theorem modLink_pcie (s : State) (n : Nat) (f : Link → Link) : (s.modLink n f).pcie = s.pcie := rfl
@[simp] theorem modLink_wardens (s : State) (n : Nat) (f : Link → Link) : (s.modLink n f).wardens = s.wardens := rfl

/-! `modBlk` changes the blocks and nothing else. -/

@[simp] theorem modBlk_pending (s : State) (b : Nat) (f : Blk → Blk) : (s.modBlk b f).pending = s.pending := rfl
@[simp] theorem modBlk_free (s : State) (b : Nat) (f : Blk → Blk) : (s.modBlk b f).free = s.free := rfl
@[simp] theorem modBlk_now (s : State) (b : Nat) (f : Blk → Blk) : (s.modBlk b f).now = s.now := rfl
@[simp] theorem modBlk_clockAt (s : State) (b : Nat) (f : Blk → Blk) : (s.modBlk b f).clockAt = s.clockAt := rfl
@[simp] theorem modBlk_mtime (s : State) (b : Nat) (f : Blk → Blk) : (s.modBlk b f).mtime = s.mtime := rfl
@[simp] theorem modBlk_fuses (s : State) (b : Nat) (f : Blk → Blk) : (s.modBlk b f).fuses = s.fuses := rfl
@[simp] theorem modBlk_pins (s : State) (b : Nat) (f : Blk → Blk) : (s.modBlk b f).pins = s.pins := rfl
@[simp] theorem modBlk_inReset (s : State) (b : Nat) (f : Blk → Blk) : (s.modBlk b f).inReset = s.inReset := rfl
@[simp] theorem modBlk_cores (s : State) (b : Nat) (f : Blk → Blk) : (s.modBlk b f).cores = s.cores := rfl
@[simp] theorem modBlk_availGen (s : State) (b : Nat) (f : Blk → Blk) : (s.modBlk b f).availGen = s.availGen := rfl
@[simp] theorem modBlk_mem (s : State) (b : Nat) (f : Blk → Blk) : (s.modBlk b f).mem = s.mem := rfl
@[simp] theorem modBlk_blks (s : State) (b : Nat) (f : Blk → Blk) : (s.modBlk b f).blks = s.blks.map fun x => if x.idx == b then f x else x := rfl
@[simp] theorem modBlk_objs (s : State) (b : Nat) (f : Blk → Blk) : (s.modBlk b f).objs = s.objs := rfl
@[simp] theorem modBlk_intents (s : State) (b : Nat) (f : Blk → Blk) : (s.modBlk b f).intents = s.intents := rfl
@[simp] theorem modBlk_moves (s : State) (b : Nat) (f : Blk → Blk) : (s.modBlk b f).moves = s.moves := rfl
@[simp] theorem modBlk_moverFailed (s : State) (b : Nat) (f : Blk → Blk) : (s.modBlk b f).moverFailed = s.moverFailed := rfl
@[simp] theorem modBlk_moveAborted (s : State) (b : Nat) (f : Blk → Blk) : (s.modBlk b f).moveAborted = s.moveAborted := rfl
@[simp] theorem modBlk_poison (s : State) (b : Nat) (f : Blk → Blk) : (s.modBlk b f).poison = s.poison := rfl
@[simp] theorem modBlk_memReg (s : State) (b : Nat) (f : Blk → Blk) : (s.modBlk b f).memReg = s.memReg := rfl
@[simp] theorem modBlk_kept (s : State) (b : Nat) (f : Blk → Blk) : (s.modBlk b f).kept = s.kept := rfl
@[simp] theorem modBlk_oldFrames (s : State) (b : Nat) (f : Blk → Blk) : (s.modBlk b f).oldFrames = s.oldFrames := rfl
@[simp] theorem modBlk_stalled (s : State) (b : Nat) (f : Blk → Blk) : (s.modBlk b f).stalled = s.stalled := rfl
@[simp] theorem modBlk_reserveKept (s : State) (b : Nat) (f : Blk → Blk) : (s.modBlk b f).reserveKept = s.reserveKept := rfl
@[simp] theorem modBlk_reserve (s : State) (b : Nat) (f : Blk → Blk) : (s.modBlk b f).reserve = s.reserve := rfl
@[simp] theorem modBlk_jobs (s : State) (b : Nat) (f : Blk → Blk) : (s.modBlk b f).jobs = s.jobs := rfl
@[simp] theorem modBlk_controls (s : State) (b : Nat) (f : Blk → Blk) : (s.modBlk b f).controls = s.controls := rfl
@[simp] theorem modBlk_loads (s : State) (b : Nat) (f : Blk → Blk) : (s.modBlk b f).loads = s.loads := rfl
@[simp] theorem modBlk_outs (s : State) (b : Nat) (f : Blk → Blk) : (s.modBlk b f).outs = s.outs := rfl
@[simp] theorem modBlk_nextUid (s : State) (b : Nat) (f : Blk → Blk) : (s.modBlk b f).nextUid = s.nextUid := rfl
@[simp] theorem modBlk_waitq (s : State) (b : Nat) (f : Blk → Blk) : (s.modBlk b f).waitq = s.waitq := rfl
@[simp] theorem modBlk_rings (s : State) (b : Nat) (f : Blk → Blk) : (s.modBlk b f).rings = s.rings := rfl
@[simp] theorem modBlk_sent (s : State) (b : Nat) (f : Blk → Blk) : (s.modBlk b f).sent = s.sent := rfl
@[simp] theorem modBlk_mgmtSeen (s : State) (b : Nat) (f : Blk → Blk) : (s.modBlk b f).mgmtSeen = s.mgmtSeen := rfl
@[simp] theorem modBlk_peerReplies (s : State) (b : Nat) (f : Blk → Blk) : (s.modBlk b f).peerReplies = s.peerReplies := rfl
@[simp] theorem modBlk_packets (s : State) (b : Nat) (f : Blk → Blk) : (s.modBlk b f).packets = s.packets := rfl
@[simp] theorem modBlk_delivered (s : State) (b : Nat) (f : Blk → Blk) : (s.modBlk b f).delivered = s.delivered := rfl
@[simp] theorem modBlk_links (s : State) (b : Nat) (f : Blk → Blk) : (s.modBlk b f).links = s.links := rfl
@[simp] theorem modBlk_fab (s : State) (b : Nat) (f : Blk → Blk) : (s.modBlk b f).fab = s.fab := rfl
@[simp] theorem modBlk_shareColl (s : State) (b : Nat) (f : Blk → Blk) : (s.modBlk b f).shareColl = s.shareColl := rfl
@[simp] theorem modBlk_shareBulk (s : State) (b : Nat) (f : Blk → Blk) : (s.modBlk b f).shareBulk = s.shareBulk := rfl
@[simp] theorem modBlk_shareNext (s : State) (b : Nat) (f : Blk → Blk) : (s.modBlk b f).shareNext = s.shareNext := rfl
@[simp] theorem modBlk_nseqNext (s : State) (b : Nat) (f : Blk → Blk) : (s.modBlk b f).nseqNext = s.nseqNext := rfl
@[simp] theorem modBlk_nseqSeen (s : State) (b : Nat) (f : Blk → Blk) : (s.modBlk b f).nseqSeen = s.nseqSeen := rfl
@[simp] theorem modBlk_unreachCnt (s : State) (b : Nat) (f : Blk → Blk) : (s.modBlk b f).unreachCnt = s.unreachCnt := rfl
@[simp] theorem modBlk_escape (s : State) (b : Nat) (f : Blk → Blk) : (s.modBlk b f).escape = s.escape := rfl
@[simp] theorem modBlk_flueCore (s : State) (b : Nat) (f : Blk → Blk) : (s.modBlk b f).flueCore = s.flueCore := rfl
@[simp] theorem modBlk_fluePort (s : State) (b : Nat) (f : Blk → Blk) : (s.modBlk b f).fluePort = s.fluePort := rfl
@[simp] theorem modBlk_flueNext (s : State) (b : Nat) (f : Blk → Blk) : (s.modBlk b f).flueNext = s.flueNext := rfl
@[simp] theorem modBlk_engines (s : State) (b : Nat) (f : Blk → Blk) : (s.modBlk b f).engines = s.engines := rfl
@[simp] theorem modBlk_colls (s : State) (b : Nat) (f : Blk → Blk) : (s.modBlk b f).colls = s.colls := rfl
@[simp] theorem modBlk_time (s : State) (b : Nat) (f : Blk → Blk) : (s.modBlk b f).time = s.time := rfl
@[simp] theorem modBlk_dev (s : State) (b : Nat) (f : Blk → Blk) : (s.modBlk b f).dev = s.dev := rfl
@[simp] theorem modBlk_trcs (s : State) (b : Nat) (f : Blk → Blk) : (s.modBlk b f).trcs = s.trcs := rfl
@[simp] theorem modBlk_capEng (s : State) (b : Nat) (f : Blk → Blk) : (s.modBlk b f).capEng = s.capEng := rfl
@[simp] theorem modBlk_ash (s : State) (b : Nat) (f : Blk → Blk) : (s.modBlk b f).ash = s.ash := rfl
@[simp] theorem modBlk_digestFailed (s : State) (b : Nat) (f : Blk → Blk) : (s.modBlk b f).digestFailed = s.digestFailed := rfl
@[simp] theorem modBlk_store (s : State) (b : Nat) (f : Blk → Blk) : (s.modBlk b f).store = s.store := rfl
@[simp] theorem modBlk_fw (s : State) (b : Nat) (f : Blk → Blk) : (s.modBlk b f).fw = s.fw := rfl
@[simp] theorem modBlk_flash (s : State) (b : Nat) (f : Blk → Blk) : (s.modBlk b f).flash = s.flash := rfl
@[simp] theorem modBlk_fenceList (s : State) (b : Nat) (f : Blk → Blk) : (s.modBlk b f).fenceList = s.fenceList := rfl
@[simp] theorem modBlk_flashOps (s : State) (b : Nat) (f : Blk → Blk) : (s.modBlk b f).flashOps = s.flashOps := rfl
@[simp] theorem modBlk_recovery (s : State) (b : Nat) (f : Blk → Blk) : (s.modBlk b f).recovery = s.recovery := rfl
@[simp] theorem modBlk_power (s : State) (b : Nat) (f : Blk → Blk) : (s.modBlk b f).power = s.power := rfl
@[simp] theorem modBlk_i3c (s : State) (b : Nat) (f : Blk → Blk) : (s.modBlk b f).i3c = s.i3c := rfl
@[simp] theorem modBlk_pcie (s : State) (b : Nat) (f : Blk → Blk) : (s.modBlk b f).pcie = s.pcie := rfl
@[simp] theorem modBlk_wardens (s : State) (b : Nat) (f : Blk → Blk) : (s.modBlk b f).wardens = s.wardens := rfl

/-! `modRing` changes the rings and nothing else. -/

@[simp] theorem modRing_pending (s : State) (n : Nat) (f : Ring → Ring) : (s.modRing n f).pending = s.pending := rfl
@[simp] theorem modRing_free (s : State) (n : Nat) (f : Ring → Ring) : (s.modRing n f).free = s.free := rfl
@[simp] theorem modRing_now (s : State) (n : Nat) (f : Ring → Ring) : (s.modRing n f).now = s.now := rfl
@[simp] theorem modRing_clockAt (s : State) (n : Nat) (f : Ring → Ring) : (s.modRing n f).clockAt = s.clockAt := rfl
@[simp] theorem modRing_mtime (s : State) (n : Nat) (f : Ring → Ring) : (s.modRing n f).mtime = s.mtime := rfl
@[simp] theorem modRing_fuses (s : State) (n : Nat) (f : Ring → Ring) : (s.modRing n f).fuses = s.fuses := rfl
@[simp] theorem modRing_pins (s : State) (n : Nat) (f : Ring → Ring) : (s.modRing n f).pins = s.pins := rfl
@[simp] theorem modRing_inReset (s : State) (n : Nat) (f : Ring → Ring) : (s.modRing n f).inReset = s.inReset := rfl
@[simp] theorem modRing_cores (s : State) (n : Nat) (f : Ring → Ring) : (s.modRing n f).cores = s.cores := rfl
@[simp] theorem modRing_availGen (s : State) (n : Nat) (f : Ring → Ring) : (s.modRing n f).availGen = s.availGen := rfl
@[simp] theorem modRing_mem (s : State) (n : Nat) (f : Ring → Ring) : (s.modRing n f).mem = s.mem := rfl
@[simp] theorem modRing_blks (s : State) (n : Nat) (f : Ring → Ring) : (s.modRing n f).blks = s.blks := rfl
@[simp] theorem modRing_objs (s : State) (n : Nat) (f : Ring → Ring) : (s.modRing n f).objs = s.objs := rfl
@[simp] theorem modRing_intents (s : State) (n : Nat) (f : Ring → Ring) : (s.modRing n f).intents = s.intents := rfl
@[simp] theorem modRing_moves (s : State) (n : Nat) (f : Ring → Ring) : (s.modRing n f).moves = s.moves := rfl
@[simp] theorem modRing_moverFailed (s : State) (n : Nat) (f : Ring → Ring) : (s.modRing n f).moverFailed = s.moverFailed := rfl
@[simp] theorem modRing_moveAborted (s : State) (n : Nat) (f : Ring → Ring) : (s.modRing n f).moveAborted = s.moveAborted := rfl
@[simp] theorem modRing_poison (s : State) (n : Nat) (f : Ring → Ring) : (s.modRing n f).poison = s.poison := rfl
@[simp] theorem modRing_memReg (s : State) (n : Nat) (f : Ring → Ring) : (s.modRing n f).memReg = s.memReg := rfl
@[simp] theorem modRing_kept (s : State) (n : Nat) (f : Ring → Ring) : (s.modRing n f).kept = s.kept := rfl
@[simp] theorem modRing_oldFrames (s : State) (n : Nat) (f : Ring → Ring) : (s.modRing n f).oldFrames = s.oldFrames := rfl
@[simp] theorem modRing_stalled (s : State) (n : Nat) (f : Ring → Ring) : (s.modRing n f).stalled = s.stalled := rfl
@[simp] theorem modRing_reserveKept (s : State) (n : Nat) (f : Ring → Ring) : (s.modRing n f).reserveKept = s.reserveKept := rfl
@[simp] theorem modRing_reserve (s : State) (n : Nat) (f : Ring → Ring) : (s.modRing n f).reserve = s.reserve := rfl
@[simp] theorem modRing_jobs (s : State) (n : Nat) (f : Ring → Ring) : (s.modRing n f).jobs = s.jobs := rfl
@[simp] theorem modRing_controls (s : State) (n : Nat) (f : Ring → Ring) : (s.modRing n f).controls = s.controls := rfl
@[simp] theorem modRing_loads (s : State) (n : Nat) (f : Ring → Ring) : (s.modRing n f).loads = s.loads := rfl
@[simp] theorem modRing_outs (s : State) (n : Nat) (f : Ring → Ring) : (s.modRing n f).outs = s.outs := rfl
@[simp] theorem modRing_nextUid (s : State) (n : Nat) (f : Ring → Ring) : (s.modRing n f).nextUid = s.nextUid := rfl
@[simp] theorem modRing_waitq (s : State) (n : Nat) (f : Ring → Ring) : (s.modRing n f).waitq = s.waitq := rfl
@[simp] theorem modRing_rings (s : State) (n : Nat) (f : Ring → Ring) : (s.modRing n f).rings = s.rings.map fun r => if r.num == n then f r else r := rfl
@[simp] theorem modRing_sent (s : State) (n : Nat) (f : Ring → Ring) : (s.modRing n f).sent = s.sent := rfl
@[simp] theorem modRing_mgmtSeen (s : State) (n : Nat) (f : Ring → Ring) : (s.modRing n f).mgmtSeen = s.mgmtSeen := rfl
@[simp] theorem modRing_peerReplies (s : State) (n : Nat) (f : Ring → Ring) : (s.modRing n f).peerReplies = s.peerReplies := rfl
@[simp] theorem modRing_packets (s : State) (n : Nat) (f : Ring → Ring) : (s.modRing n f).packets = s.packets := rfl
@[simp] theorem modRing_delivered (s : State) (n : Nat) (f : Ring → Ring) : (s.modRing n f).delivered = s.delivered := rfl
@[simp] theorem modRing_links (s : State) (n : Nat) (f : Ring → Ring) : (s.modRing n f).links = s.links := rfl
@[simp] theorem modRing_fab (s : State) (n : Nat) (f : Ring → Ring) : (s.modRing n f).fab = s.fab := rfl
@[simp] theorem modRing_shareColl (s : State) (n : Nat) (f : Ring → Ring) : (s.modRing n f).shareColl = s.shareColl := rfl
@[simp] theorem modRing_shareBulk (s : State) (n : Nat) (f : Ring → Ring) : (s.modRing n f).shareBulk = s.shareBulk := rfl
@[simp] theorem modRing_shareNext (s : State) (n : Nat) (f : Ring → Ring) : (s.modRing n f).shareNext = s.shareNext := rfl
@[simp] theorem modRing_nseqNext (s : State) (n : Nat) (f : Ring → Ring) : (s.modRing n f).nseqNext = s.nseqNext := rfl
@[simp] theorem modRing_nseqSeen (s : State) (n : Nat) (f : Ring → Ring) : (s.modRing n f).nseqSeen = s.nseqSeen := rfl
@[simp] theorem modRing_unreachCnt (s : State) (n : Nat) (f : Ring → Ring) : (s.modRing n f).unreachCnt = s.unreachCnt := rfl
@[simp] theorem modRing_escape (s : State) (n : Nat) (f : Ring → Ring) : (s.modRing n f).escape = s.escape := rfl
@[simp] theorem modRing_flueCore (s : State) (n : Nat) (f : Ring → Ring) : (s.modRing n f).flueCore = s.flueCore := rfl
@[simp] theorem modRing_fluePort (s : State) (n : Nat) (f : Ring → Ring) : (s.modRing n f).fluePort = s.fluePort := rfl
@[simp] theorem modRing_flueNext (s : State) (n : Nat) (f : Ring → Ring) : (s.modRing n f).flueNext = s.flueNext := rfl
@[simp] theorem modRing_engines (s : State) (n : Nat) (f : Ring → Ring) : (s.modRing n f).engines = s.engines := rfl
@[simp] theorem modRing_colls (s : State) (n : Nat) (f : Ring → Ring) : (s.modRing n f).colls = s.colls := rfl
@[simp] theorem modRing_time (s : State) (n : Nat) (f : Ring → Ring) : (s.modRing n f).time = s.time := rfl
@[simp] theorem modRing_dev (s : State) (n : Nat) (f : Ring → Ring) : (s.modRing n f).dev = s.dev := rfl
@[simp] theorem modRing_trcs (s : State) (n : Nat) (f : Ring → Ring) : (s.modRing n f).trcs = s.trcs := rfl
@[simp] theorem modRing_capEng (s : State) (n : Nat) (f : Ring → Ring) : (s.modRing n f).capEng = s.capEng := rfl
@[simp] theorem modRing_ash (s : State) (n : Nat) (f : Ring → Ring) : (s.modRing n f).ash = s.ash := rfl
@[simp] theorem modRing_digestFailed (s : State) (n : Nat) (f : Ring → Ring) : (s.modRing n f).digestFailed = s.digestFailed := rfl
@[simp] theorem modRing_store (s : State) (n : Nat) (f : Ring → Ring) : (s.modRing n f).store = s.store := rfl
@[simp] theorem modRing_fw (s : State) (n : Nat) (f : Ring → Ring) : (s.modRing n f).fw = s.fw := rfl
@[simp] theorem modRing_flash (s : State) (n : Nat) (f : Ring → Ring) : (s.modRing n f).flash = s.flash := rfl
@[simp] theorem modRing_fenceList (s : State) (n : Nat) (f : Ring → Ring) : (s.modRing n f).fenceList = s.fenceList := rfl
@[simp] theorem modRing_flashOps (s : State) (n : Nat) (f : Ring → Ring) : (s.modRing n f).flashOps = s.flashOps := rfl
@[simp] theorem modRing_recovery (s : State) (n : Nat) (f : Ring → Ring) : (s.modRing n f).recovery = s.recovery := rfl
@[simp] theorem modRing_power (s : State) (n : Nat) (f : Ring → Ring) : (s.modRing n f).power = s.power := rfl
@[simp] theorem modRing_i3c (s : State) (n : Nat) (f : Ring → Ring) : (s.modRing n f).i3c = s.i3c := rfl
@[simp] theorem modRing_pcie (s : State) (n : Nat) (f : Ring → Ring) : (s.modRing n f).pcie = s.pcie := rfl
@[simp] theorem modRing_wardens (s : State) (n : Nat) (f : Ring → Ring) : (s.modRing n f).wardens = s.wardens := rfl

/-! `modOut` changes the outstanding commands and nothing else. -/

@[simp] theorem modOut_pending (s : State) (u : Nat) (f : Out → Out) : (s.modOut u f).pending = s.pending := rfl
@[simp] theorem modOut_free (s : State) (u : Nat) (f : Out → Out) : (s.modOut u f).free = s.free := rfl
@[simp] theorem modOut_now (s : State) (u : Nat) (f : Out → Out) : (s.modOut u f).now = s.now := rfl
@[simp] theorem modOut_clockAt (s : State) (u : Nat) (f : Out → Out) : (s.modOut u f).clockAt = s.clockAt := rfl
@[simp] theorem modOut_mtime (s : State) (u : Nat) (f : Out → Out) : (s.modOut u f).mtime = s.mtime := rfl
@[simp] theorem modOut_fuses (s : State) (u : Nat) (f : Out → Out) : (s.modOut u f).fuses = s.fuses := rfl
@[simp] theorem modOut_pins (s : State) (u : Nat) (f : Out → Out) : (s.modOut u f).pins = s.pins := rfl
@[simp] theorem modOut_inReset (s : State) (u : Nat) (f : Out → Out) : (s.modOut u f).inReset = s.inReset := rfl
@[simp] theorem modOut_cores (s : State) (u : Nat) (f : Out → Out) : (s.modOut u f).cores = s.cores := rfl
@[simp] theorem modOut_availGen (s : State) (u : Nat) (f : Out → Out) : (s.modOut u f).availGen = s.availGen := rfl
@[simp] theorem modOut_mem (s : State) (u : Nat) (f : Out → Out) : (s.modOut u f).mem = s.mem := rfl
@[simp] theorem modOut_blks (s : State) (u : Nat) (f : Out → Out) : (s.modOut u f).blks = s.blks := rfl
@[simp] theorem modOut_objs (s : State) (u : Nat) (f : Out → Out) : (s.modOut u f).objs = s.objs := rfl
@[simp] theorem modOut_intents (s : State) (u : Nat) (f : Out → Out) : (s.modOut u f).intents = s.intents := rfl
@[simp] theorem modOut_moves (s : State) (u : Nat) (f : Out → Out) : (s.modOut u f).moves = s.moves := rfl
@[simp] theorem modOut_moverFailed (s : State) (u : Nat) (f : Out → Out) : (s.modOut u f).moverFailed = s.moverFailed := rfl
@[simp] theorem modOut_moveAborted (s : State) (u : Nat) (f : Out → Out) : (s.modOut u f).moveAborted = s.moveAborted := rfl
@[simp] theorem modOut_poison (s : State) (u : Nat) (f : Out → Out) : (s.modOut u f).poison = s.poison := rfl
@[simp] theorem modOut_memReg (s : State) (u : Nat) (f : Out → Out) : (s.modOut u f).memReg = s.memReg := rfl
@[simp] theorem modOut_kept (s : State) (u : Nat) (f : Out → Out) : (s.modOut u f).kept = s.kept := rfl
@[simp] theorem modOut_oldFrames (s : State) (u : Nat) (f : Out → Out) : (s.modOut u f).oldFrames = s.oldFrames := rfl
@[simp] theorem modOut_stalled (s : State) (u : Nat) (f : Out → Out) : (s.modOut u f).stalled = s.stalled := rfl
@[simp] theorem modOut_reserveKept (s : State) (u : Nat) (f : Out → Out) : (s.modOut u f).reserveKept = s.reserveKept := rfl
@[simp] theorem modOut_reserve (s : State) (u : Nat) (f : Out → Out) : (s.modOut u f).reserve = s.reserve := rfl
@[simp] theorem modOut_jobs (s : State) (u : Nat) (f : Out → Out) : (s.modOut u f).jobs = s.jobs := rfl
@[simp] theorem modOut_controls (s : State) (u : Nat) (f : Out → Out) : (s.modOut u f).controls = s.controls := rfl
@[simp] theorem modOut_loads (s : State) (u : Nat) (f : Out → Out) : (s.modOut u f).loads = s.loads := rfl
@[simp] theorem modOut_outs (s : State) (u : Nat) (f : Out → Out) : (s.modOut u f).outs = s.outs.map fun o => if o.uid == u then f o else o := rfl
@[simp] theorem modOut_nextUid (s : State) (u : Nat) (f : Out → Out) : (s.modOut u f).nextUid = s.nextUid := rfl
@[simp] theorem modOut_waitq (s : State) (u : Nat) (f : Out → Out) : (s.modOut u f).waitq = s.waitq := rfl
@[simp] theorem modOut_rings (s : State) (u : Nat) (f : Out → Out) : (s.modOut u f).rings = s.rings := rfl
@[simp] theorem modOut_sent (s : State) (u : Nat) (f : Out → Out) : (s.modOut u f).sent = s.sent := rfl
@[simp] theorem modOut_mgmtSeen (s : State) (u : Nat) (f : Out → Out) : (s.modOut u f).mgmtSeen = s.mgmtSeen := rfl
@[simp] theorem modOut_peerReplies (s : State) (u : Nat) (f : Out → Out) : (s.modOut u f).peerReplies = s.peerReplies := rfl
@[simp] theorem modOut_packets (s : State) (u : Nat) (f : Out → Out) : (s.modOut u f).packets = s.packets := rfl
@[simp] theorem modOut_delivered (s : State) (u : Nat) (f : Out → Out) : (s.modOut u f).delivered = s.delivered := rfl
@[simp] theorem modOut_links (s : State) (u : Nat) (f : Out → Out) : (s.modOut u f).links = s.links := rfl
@[simp] theorem modOut_fab (s : State) (u : Nat) (f : Out → Out) : (s.modOut u f).fab = s.fab := rfl
@[simp] theorem modOut_shareColl (s : State) (u : Nat) (f : Out → Out) : (s.modOut u f).shareColl = s.shareColl := rfl
@[simp] theorem modOut_shareBulk (s : State) (u : Nat) (f : Out → Out) : (s.modOut u f).shareBulk = s.shareBulk := rfl
@[simp] theorem modOut_shareNext (s : State) (u : Nat) (f : Out → Out) : (s.modOut u f).shareNext = s.shareNext := rfl
@[simp] theorem modOut_nseqNext (s : State) (u : Nat) (f : Out → Out) : (s.modOut u f).nseqNext = s.nseqNext := rfl
@[simp] theorem modOut_nseqSeen (s : State) (u : Nat) (f : Out → Out) : (s.modOut u f).nseqSeen = s.nseqSeen := rfl
@[simp] theorem modOut_unreachCnt (s : State) (u : Nat) (f : Out → Out) : (s.modOut u f).unreachCnt = s.unreachCnt := rfl
@[simp] theorem modOut_escape (s : State) (u : Nat) (f : Out → Out) : (s.modOut u f).escape = s.escape := rfl
@[simp] theorem modOut_flueCore (s : State) (u : Nat) (f : Out → Out) : (s.modOut u f).flueCore = s.flueCore := rfl
@[simp] theorem modOut_fluePort (s : State) (u : Nat) (f : Out → Out) : (s.modOut u f).fluePort = s.fluePort := rfl
@[simp] theorem modOut_flueNext (s : State) (u : Nat) (f : Out → Out) : (s.modOut u f).flueNext = s.flueNext := rfl
@[simp] theorem modOut_engines (s : State) (u : Nat) (f : Out → Out) : (s.modOut u f).engines = s.engines := rfl
@[simp] theorem modOut_colls (s : State) (u : Nat) (f : Out → Out) : (s.modOut u f).colls = s.colls := rfl
@[simp] theorem modOut_time (s : State) (u : Nat) (f : Out → Out) : (s.modOut u f).time = s.time := rfl
@[simp] theorem modOut_dev (s : State) (u : Nat) (f : Out → Out) : (s.modOut u f).dev = s.dev := rfl
@[simp] theorem modOut_trcs (s : State) (u : Nat) (f : Out → Out) : (s.modOut u f).trcs = s.trcs := rfl
@[simp] theorem modOut_capEng (s : State) (u : Nat) (f : Out → Out) : (s.modOut u f).capEng = s.capEng := rfl
@[simp] theorem modOut_ash (s : State) (u : Nat) (f : Out → Out) : (s.modOut u f).ash = s.ash := rfl
@[simp] theorem modOut_digestFailed (s : State) (u : Nat) (f : Out → Out) : (s.modOut u f).digestFailed = s.digestFailed := rfl
@[simp] theorem modOut_store (s : State) (u : Nat) (f : Out → Out) : (s.modOut u f).store = s.store := rfl
@[simp] theorem modOut_fw (s : State) (u : Nat) (f : Out → Out) : (s.modOut u f).fw = s.fw := rfl
@[simp] theorem modOut_flash (s : State) (u : Nat) (f : Out → Out) : (s.modOut u f).flash = s.flash := rfl
@[simp] theorem modOut_fenceList (s : State) (u : Nat) (f : Out → Out) : (s.modOut u f).fenceList = s.fenceList := rfl
@[simp] theorem modOut_flashOps (s : State) (u : Nat) (f : Out → Out) : (s.modOut u f).flashOps = s.flashOps := rfl
@[simp] theorem modOut_recovery (s : State) (u : Nat) (f : Out → Out) : (s.modOut u f).recovery = s.recovery := rfl
@[simp] theorem modOut_power (s : State) (u : Nat) (f : Out → Out) : (s.modOut u f).power = s.power := rfl
@[simp] theorem modOut_i3c (s : State) (u : Nat) (f : Out → Out) : (s.modOut u f).i3c = s.i3c := rfl
@[simp] theorem modOut_pcie (s : State) (u : Nat) (f : Out → Out) : (s.modOut u f).pcie = s.pcie := rfl
@[simp] theorem modOut_wardens (s : State) (u : Nat) (f : Out → Out) : (s.modOut u f).wardens = s.wardens := rfl

/-! `modColl` changes the collectives and nothing else. -/

@[simp] theorem modColl_pending (s : State) (u : Nat) (f : Coll → Coll) : (s.modColl u f).pending = s.pending := rfl
@[simp] theorem modColl_free (s : State) (u : Nat) (f : Coll → Coll) : (s.modColl u f).free = s.free := rfl
@[simp] theorem modColl_now (s : State) (u : Nat) (f : Coll → Coll) : (s.modColl u f).now = s.now := rfl
@[simp] theorem modColl_clockAt (s : State) (u : Nat) (f : Coll → Coll) : (s.modColl u f).clockAt = s.clockAt := rfl
@[simp] theorem modColl_mtime (s : State) (u : Nat) (f : Coll → Coll) : (s.modColl u f).mtime = s.mtime := rfl
@[simp] theorem modColl_fuses (s : State) (u : Nat) (f : Coll → Coll) : (s.modColl u f).fuses = s.fuses := rfl
@[simp] theorem modColl_pins (s : State) (u : Nat) (f : Coll → Coll) : (s.modColl u f).pins = s.pins := rfl
@[simp] theorem modColl_inReset (s : State) (u : Nat) (f : Coll → Coll) : (s.modColl u f).inReset = s.inReset := rfl
@[simp] theorem modColl_cores (s : State) (u : Nat) (f : Coll → Coll) : (s.modColl u f).cores = s.cores := rfl
@[simp] theorem modColl_availGen (s : State) (u : Nat) (f : Coll → Coll) : (s.modColl u f).availGen = s.availGen := rfl
@[simp] theorem modColl_mem (s : State) (u : Nat) (f : Coll → Coll) : (s.modColl u f).mem = s.mem := rfl
@[simp] theorem modColl_blks (s : State) (u : Nat) (f : Coll → Coll) : (s.modColl u f).blks = s.blks := rfl
@[simp] theorem modColl_objs (s : State) (u : Nat) (f : Coll → Coll) : (s.modColl u f).objs = s.objs := rfl
@[simp] theorem modColl_intents (s : State) (u : Nat) (f : Coll → Coll) : (s.modColl u f).intents = s.intents := rfl
@[simp] theorem modColl_moves (s : State) (u : Nat) (f : Coll → Coll) : (s.modColl u f).moves = s.moves := rfl
@[simp] theorem modColl_moverFailed (s : State) (u : Nat) (f : Coll → Coll) : (s.modColl u f).moverFailed = s.moverFailed := rfl
@[simp] theorem modColl_moveAborted (s : State) (u : Nat) (f : Coll → Coll) : (s.modColl u f).moveAborted = s.moveAborted := rfl
@[simp] theorem modColl_poison (s : State) (u : Nat) (f : Coll → Coll) : (s.modColl u f).poison = s.poison := rfl
@[simp] theorem modColl_memReg (s : State) (u : Nat) (f : Coll → Coll) : (s.modColl u f).memReg = s.memReg := rfl
@[simp] theorem modColl_kept (s : State) (u : Nat) (f : Coll → Coll) : (s.modColl u f).kept = s.kept := rfl
@[simp] theorem modColl_oldFrames (s : State) (u : Nat) (f : Coll → Coll) : (s.modColl u f).oldFrames = s.oldFrames := rfl
@[simp] theorem modColl_stalled (s : State) (u : Nat) (f : Coll → Coll) : (s.modColl u f).stalled = s.stalled := rfl
@[simp] theorem modColl_reserveKept (s : State) (u : Nat) (f : Coll → Coll) : (s.modColl u f).reserveKept = s.reserveKept := rfl
@[simp] theorem modColl_reserve (s : State) (u : Nat) (f : Coll → Coll) : (s.modColl u f).reserve = s.reserve := rfl
@[simp] theorem modColl_jobs (s : State) (u : Nat) (f : Coll → Coll) : (s.modColl u f).jobs = s.jobs := rfl
@[simp] theorem modColl_controls (s : State) (u : Nat) (f : Coll → Coll) : (s.modColl u f).controls = s.controls := rfl
@[simp] theorem modColl_loads (s : State) (u : Nat) (f : Coll → Coll) : (s.modColl u f).loads = s.loads := rfl
@[simp] theorem modColl_outs (s : State) (u : Nat) (f : Coll → Coll) : (s.modColl u f).outs = s.outs := rfl
@[simp] theorem modColl_nextUid (s : State) (u : Nat) (f : Coll → Coll) : (s.modColl u f).nextUid = s.nextUid := rfl
@[simp] theorem modColl_waitq (s : State) (u : Nat) (f : Coll → Coll) : (s.modColl u f).waitq = s.waitq := rfl
@[simp] theorem modColl_rings (s : State) (u : Nat) (f : Coll → Coll) : (s.modColl u f).rings = s.rings := rfl
@[simp] theorem modColl_sent (s : State) (u : Nat) (f : Coll → Coll) : (s.modColl u f).sent = s.sent := rfl
@[simp] theorem modColl_mgmtSeen (s : State) (u : Nat) (f : Coll → Coll) : (s.modColl u f).mgmtSeen = s.mgmtSeen := rfl
@[simp] theorem modColl_peerReplies (s : State) (u : Nat) (f : Coll → Coll) : (s.modColl u f).peerReplies = s.peerReplies := rfl
@[simp] theorem modColl_packets (s : State) (u : Nat) (f : Coll → Coll) : (s.modColl u f).packets = s.packets := rfl
@[simp] theorem modColl_delivered (s : State) (u : Nat) (f : Coll → Coll) : (s.modColl u f).delivered = s.delivered := rfl
@[simp] theorem modColl_links (s : State) (u : Nat) (f : Coll → Coll) : (s.modColl u f).links = s.links := rfl
@[simp] theorem modColl_fab (s : State) (u : Nat) (f : Coll → Coll) : (s.modColl u f).fab = s.fab := rfl
@[simp] theorem modColl_shareColl (s : State) (u : Nat) (f : Coll → Coll) : (s.modColl u f).shareColl = s.shareColl := rfl
@[simp] theorem modColl_shareBulk (s : State) (u : Nat) (f : Coll → Coll) : (s.modColl u f).shareBulk = s.shareBulk := rfl
@[simp] theorem modColl_shareNext (s : State) (u : Nat) (f : Coll → Coll) : (s.modColl u f).shareNext = s.shareNext := rfl
@[simp] theorem modColl_nseqNext (s : State) (u : Nat) (f : Coll → Coll) : (s.modColl u f).nseqNext = s.nseqNext := rfl
@[simp] theorem modColl_nseqSeen (s : State) (u : Nat) (f : Coll → Coll) : (s.modColl u f).nseqSeen = s.nseqSeen := rfl
@[simp] theorem modColl_unreachCnt (s : State) (u : Nat) (f : Coll → Coll) : (s.modColl u f).unreachCnt = s.unreachCnt := rfl
@[simp] theorem modColl_escape (s : State) (u : Nat) (f : Coll → Coll) : (s.modColl u f).escape = s.escape := rfl
@[simp] theorem modColl_flueCore (s : State) (u : Nat) (f : Coll → Coll) : (s.modColl u f).flueCore = s.flueCore := rfl
@[simp] theorem modColl_fluePort (s : State) (u : Nat) (f : Coll → Coll) : (s.modColl u f).fluePort = s.fluePort := rfl
@[simp] theorem modColl_flueNext (s : State) (u : Nat) (f : Coll → Coll) : (s.modColl u f).flueNext = s.flueNext := rfl
@[simp] theorem modColl_engines (s : State) (u : Nat) (f : Coll → Coll) : (s.modColl u f).engines = s.engines := rfl
@[simp] theorem modColl_colls (s : State) (u : Nat) (f : Coll → Coll) : (s.modColl u f).colls = s.colls.map fun c => if c.uid == u then f c else c := rfl
@[simp] theorem modColl_time (s : State) (u : Nat) (f : Coll → Coll) : (s.modColl u f).time = s.time := rfl
@[simp] theorem modColl_dev (s : State) (u : Nat) (f : Coll → Coll) : (s.modColl u f).dev = s.dev := rfl
@[simp] theorem modColl_trcs (s : State) (u : Nat) (f : Coll → Coll) : (s.modColl u f).trcs = s.trcs := rfl
@[simp] theorem modColl_capEng (s : State) (u : Nat) (f : Coll → Coll) : (s.modColl u f).capEng = s.capEng := rfl
@[simp] theorem modColl_ash (s : State) (u : Nat) (f : Coll → Coll) : (s.modColl u f).ash = s.ash := rfl
@[simp] theorem modColl_digestFailed (s : State) (u : Nat) (f : Coll → Coll) : (s.modColl u f).digestFailed = s.digestFailed := rfl
@[simp] theorem modColl_store (s : State) (u : Nat) (f : Coll → Coll) : (s.modColl u f).store = s.store := rfl
@[simp] theorem modColl_fw (s : State) (u : Nat) (f : Coll → Coll) : (s.modColl u f).fw = s.fw := rfl
@[simp] theorem modColl_flash (s : State) (u : Nat) (f : Coll → Coll) : (s.modColl u f).flash = s.flash := rfl
@[simp] theorem modColl_fenceList (s : State) (u : Nat) (f : Coll → Coll) : (s.modColl u f).fenceList = s.fenceList := rfl
@[simp] theorem modColl_flashOps (s : State) (u : Nat) (f : Coll → Coll) : (s.modColl u f).flashOps = s.flashOps := rfl
@[simp] theorem modColl_recovery (s : State) (u : Nat) (f : Coll → Coll) : (s.modColl u f).recovery = s.recovery := rfl
@[simp] theorem modColl_power (s : State) (u : Nat) (f : Coll → Coll) : (s.modColl u f).power = s.power := rfl
@[simp] theorem modColl_i3c (s : State) (u : Nat) (f : Coll → Coll) : (s.modColl u f).i3c = s.i3c := rfl
@[simp] theorem modColl_pcie (s : State) (u : Nat) (f : Coll → Coll) : (s.modColl u f).pcie = s.pcie := rfl
@[simp] theorem modColl_wardens (s : State) (u : Nat) (f : Coll → Coll) : (s.modColl u f).wardens = s.wardens := rfl

/-! `modTime` changes the time block and nothing else. -/

@[simp] theorem modTime_pending (s : State) (f : TimeSt → TimeSt) : (s.modTime f).pending = s.pending := rfl
@[simp] theorem modTime_free (s : State) (f : TimeSt → TimeSt) : (s.modTime f).free = s.free := rfl
@[simp] theorem modTime_now (s : State) (f : TimeSt → TimeSt) : (s.modTime f).now = s.now := rfl
@[simp] theorem modTime_clockAt (s : State) (f : TimeSt → TimeSt) : (s.modTime f).clockAt = s.clockAt := rfl
@[simp] theorem modTime_mtime (s : State) (f : TimeSt → TimeSt) : (s.modTime f).mtime = s.mtime := rfl
@[simp] theorem modTime_fuses (s : State) (f : TimeSt → TimeSt) : (s.modTime f).fuses = s.fuses := rfl
@[simp] theorem modTime_pins (s : State) (f : TimeSt → TimeSt) : (s.modTime f).pins = s.pins := rfl
@[simp] theorem modTime_inReset (s : State) (f : TimeSt → TimeSt) : (s.modTime f).inReset = s.inReset := rfl
@[simp] theorem modTime_cores (s : State) (f : TimeSt → TimeSt) : (s.modTime f).cores = s.cores := rfl
@[simp] theorem modTime_availGen (s : State) (f : TimeSt → TimeSt) : (s.modTime f).availGen = s.availGen := rfl
@[simp] theorem modTime_mem (s : State) (f : TimeSt → TimeSt) : (s.modTime f).mem = s.mem := rfl
@[simp] theorem modTime_blks (s : State) (f : TimeSt → TimeSt) : (s.modTime f).blks = s.blks := rfl
@[simp] theorem modTime_objs (s : State) (f : TimeSt → TimeSt) : (s.modTime f).objs = s.objs := rfl
@[simp] theorem modTime_intents (s : State) (f : TimeSt → TimeSt) : (s.modTime f).intents = s.intents := rfl
@[simp] theorem modTime_moves (s : State) (f : TimeSt → TimeSt) : (s.modTime f).moves = s.moves := rfl
@[simp] theorem modTime_moverFailed (s : State) (f : TimeSt → TimeSt) : (s.modTime f).moverFailed = s.moverFailed := rfl
@[simp] theorem modTime_moveAborted (s : State) (f : TimeSt → TimeSt) : (s.modTime f).moveAborted = s.moveAborted := rfl
@[simp] theorem modTime_poison (s : State) (f : TimeSt → TimeSt) : (s.modTime f).poison = s.poison := rfl
@[simp] theorem modTime_memReg (s : State) (f : TimeSt → TimeSt) : (s.modTime f).memReg = s.memReg := rfl
@[simp] theorem modTime_kept (s : State) (f : TimeSt → TimeSt) : (s.modTime f).kept = s.kept := rfl
@[simp] theorem modTime_oldFrames (s : State) (f : TimeSt → TimeSt) : (s.modTime f).oldFrames = s.oldFrames := rfl
@[simp] theorem modTime_stalled (s : State) (f : TimeSt → TimeSt) : (s.modTime f).stalled = s.stalled := rfl
@[simp] theorem modTime_reserveKept (s : State) (f : TimeSt → TimeSt) : (s.modTime f).reserveKept = s.reserveKept := rfl
@[simp] theorem modTime_reserve (s : State) (f : TimeSt → TimeSt) : (s.modTime f).reserve = s.reserve := rfl
@[simp] theorem modTime_jobs (s : State) (f : TimeSt → TimeSt) : (s.modTime f).jobs = s.jobs := rfl
@[simp] theorem modTime_controls (s : State) (f : TimeSt → TimeSt) : (s.modTime f).controls = s.controls := rfl
@[simp] theorem modTime_loads (s : State) (f : TimeSt → TimeSt) : (s.modTime f).loads = s.loads := rfl
@[simp] theorem modTime_outs (s : State) (f : TimeSt → TimeSt) : (s.modTime f).outs = s.outs := rfl
@[simp] theorem modTime_nextUid (s : State) (f : TimeSt → TimeSt) : (s.modTime f).nextUid = s.nextUid := rfl
@[simp] theorem modTime_waitq (s : State) (f : TimeSt → TimeSt) : (s.modTime f).waitq = s.waitq := rfl
@[simp] theorem modTime_rings (s : State) (f : TimeSt → TimeSt) : (s.modTime f).rings = s.rings := rfl
@[simp] theorem modTime_sent (s : State) (f : TimeSt → TimeSt) : (s.modTime f).sent = s.sent := rfl
@[simp] theorem modTime_mgmtSeen (s : State) (f : TimeSt → TimeSt) : (s.modTime f).mgmtSeen = s.mgmtSeen := rfl
@[simp] theorem modTime_peerReplies (s : State) (f : TimeSt → TimeSt) : (s.modTime f).peerReplies = s.peerReplies := rfl
@[simp] theorem modTime_packets (s : State) (f : TimeSt → TimeSt) : (s.modTime f).packets = s.packets := rfl
@[simp] theorem modTime_delivered (s : State) (f : TimeSt → TimeSt) : (s.modTime f).delivered = s.delivered := rfl
@[simp] theorem modTime_links (s : State) (f : TimeSt → TimeSt) : (s.modTime f).links = s.links := rfl
@[simp] theorem modTime_fab (s : State) (f : TimeSt → TimeSt) : (s.modTime f).fab = s.fab := rfl
@[simp] theorem modTime_shareColl (s : State) (f : TimeSt → TimeSt) : (s.modTime f).shareColl = s.shareColl := rfl
@[simp] theorem modTime_shareBulk (s : State) (f : TimeSt → TimeSt) : (s.modTime f).shareBulk = s.shareBulk := rfl
@[simp] theorem modTime_shareNext (s : State) (f : TimeSt → TimeSt) : (s.modTime f).shareNext = s.shareNext := rfl
@[simp] theorem modTime_nseqNext (s : State) (f : TimeSt → TimeSt) : (s.modTime f).nseqNext = s.nseqNext := rfl
@[simp] theorem modTime_nseqSeen (s : State) (f : TimeSt → TimeSt) : (s.modTime f).nseqSeen = s.nseqSeen := rfl
@[simp] theorem modTime_unreachCnt (s : State) (f : TimeSt → TimeSt) : (s.modTime f).unreachCnt = s.unreachCnt := rfl
@[simp] theorem modTime_escape (s : State) (f : TimeSt → TimeSt) : (s.modTime f).escape = s.escape := rfl
@[simp] theorem modTime_flueCore (s : State) (f : TimeSt → TimeSt) : (s.modTime f).flueCore = s.flueCore := rfl
@[simp] theorem modTime_fluePort (s : State) (f : TimeSt → TimeSt) : (s.modTime f).fluePort = s.fluePort := rfl
@[simp] theorem modTime_flueNext (s : State) (f : TimeSt → TimeSt) : (s.modTime f).flueNext = s.flueNext := rfl
@[simp] theorem modTime_engines (s : State) (f : TimeSt → TimeSt) : (s.modTime f).engines = s.engines := rfl
@[simp] theorem modTime_colls (s : State) (f : TimeSt → TimeSt) : (s.modTime f).colls = s.colls := rfl
@[simp] theorem modTime_time (s : State) (f : TimeSt → TimeSt) : (s.modTime f).time = f s.time := rfl
@[simp] theorem modTime_dev (s : State) (f : TimeSt → TimeSt) : (s.modTime f).dev = s.dev := rfl
@[simp] theorem modTime_trcs (s : State) (f : TimeSt → TimeSt) : (s.modTime f).trcs = s.trcs := rfl
@[simp] theorem modTime_capEng (s : State) (f : TimeSt → TimeSt) : (s.modTime f).capEng = s.capEng := rfl
@[simp] theorem modTime_ash (s : State) (f : TimeSt → TimeSt) : (s.modTime f).ash = s.ash := rfl
@[simp] theorem modTime_digestFailed (s : State) (f : TimeSt → TimeSt) : (s.modTime f).digestFailed = s.digestFailed := rfl
@[simp] theorem modTime_store (s : State) (f : TimeSt → TimeSt) : (s.modTime f).store = s.store := rfl
@[simp] theorem modTime_fw (s : State) (f : TimeSt → TimeSt) : (s.modTime f).fw = s.fw := rfl
@[simp] theorem modTime_flash (s : State) (f : TimeSt → TimeSt) : (s.modTime f).flash = s.flash := rfl
@[simp] theorem modTime_fenceList (s : State) (f : TimeSt → TimeSt) : (s.modTime f).fenceList = s.fenceList := rfl
@[simp] theorem modTime_flashOps (s : State) (f : TimeSt → TimeSt) : (s.modTime f).flashOps = s.flashOps := rfl
@[simp] theorem modTime_recovery (s : State) (f : TimeSt → TimeSt) : (s.modTime f).recovery = s.recovery := rfl
@[simp] theorem modTime_power (s : State) (f : TimeSt → TimeSt) : (s.modTime f).power = s.power := rfl
@[simp] theorem modTime_i3c (s : State) (f : TimeSt → TimeSt) : (s.modTime f).i3c = s.i3c := rfl
@[simp] theorem modTime_pcie (s : State) (f : TimeSt → TimeSt) : (s.modTime f).pcie = s.pcie := rfl
@[simp] theorem modTime_wardens (s : State) (f : TimeSt → TimeSt) : (s.modTime f).wardens = s.wardens := rfl

/-! `modFw` changes the firmware record and nothing else. -/

@[simp] theorem modFw_pending (s : State) (f : Fw → Fw) : (s.modFw f).pending = s.pending := rfl
@[simp] theorem modFw_free (s : State) (f : Fw → Fw) : (s.modFw f).free = s.free := rfl
@[simp] theorem modFw_now (s : State) (f : Fw → Fw) : (s.modFw f).now = s.now := rfl
@[simp] theorem modFw_clockAt (s : State) (f : Fw → Fw) : (s.modFw f).clockAt = s.clockAt := rfl
@[simp] theorem modFw_mtime (s : State) (f : Fw → Fw) : (s.modFw f).mtime = s.mtime := rfl
@[simp] theorem modFw_fuses (s : State) (f : Fw → Fw) : (s.modFw f).fuses = s.fuses := rfl
@[simp] theorem modFw_pins (s : State) (f : Fw → Fw) : (s.modFw f).pins = s.pins := rfl
@[simp] theorem modFw_inReset (s : State) (f : Fw → Fw) : (s.modFw f).inReset = s.inReset := rfl
@[simp] theorem modFw_cores (s : State) (f : Fw → Fw) : (s.modFw f).cores = s.cores := rfl
@[simp] theorem modFw_availGen (s : State) (f : Fw → Fw) : (s.modFw f).availGen = s.availGen := rfl
@[simp] theorem modFw_mem (s : State) (f : Fw → Fw) : (s.modFw f).mem = s.mem := rfl
@[simp] theorem modFw_blks (s : State) (f : Fw → Fw) : (s.modFw f).blks = s.blks := rfl
@[simp] theorem modFw_objs (s : State) (f : Fw → Fw) : (s.modFw f).objs = s.objs := rfl
@[simp] theorem modFw_intents (s : State) (f : Fw → Fw) : (s.modFw f).intents = s.intents := rfl
@[simp] theorem modFw_moves (s : State) (f : Fw → Fw) : (s.modFw f).moves = s.moves := rfl
@[simp] theorem modFw_moverFailed (s : State) (f : Fw → Fw) : (s.modFw f).moverFailed = s.moverFailed := rfl
@[simp] theorem modFw_moveAborted (s : State) (f : Fw → Fw) : (s.modFw f).moveAborted = s.moveAborted := rfl
@[simp] theorem modFw_poison (s : State) (f : Fw → Fw) : (s.modFw f).poison = s.poison := rfl
@[simp] theorem modFw_memReg (s : State) (f : Fw → Fw) : (s.modFw f).memReg = s.memReg := rfl
@[simp] theorem modFw_kept (s : State) (f : Fw → Fw) : (s.modFw f).kept = s.kept := rfl
@[simp] theorem modFw_oldFrames (s : State) (f : Fw → Fw) : (s.modFw f).oldFrames = s.oldFrames := rfl
@[simp] theorem modFw_stalled (s : State) (f : Fw → Fw) : (s.modFw f).stalled = s.stalled := rfl
@[simp] theorem modFw_reserveKept (s : State) (f : Fw → Fw) : (s.modFw f).reserveKept = s.reserveKept := rfl
@[simp] theorem modFw_reserve (s : State) (f : Fw → Fw) : (s.modFw f).reserve = s.reserve := rfl
@[simp] theorem modFw_jobs (s : State) (f : Fw → Fw) : (s.modFw f).jobs = s.jobs := rfl
@[simp] theorem modFw_controls (s : State) (f : Fw → Fw) : (s.modFw f).controls = s.controls := rfl
@[simp] theorem modFw_loads (s : State) (f : Fw → Fw) : (s.modFw f).loads = s.loads := rfl
@[simp] theorem modFw_outs (s : State) (f : Fw → Fw) : (s.modFw f).outs = s.outs := rfl
@[simp] theorem modFw_nextUid (s : State) (f : Fw → Fw) : (s.modFw f).nextUid = s.nextUid := rfl
@[simp] theorem modFw_waitq (s : State) (f : Fw → Fw) : (s.modFw f).waitq = s.waitq := rfl
@[simp] theorem modFw_rings (s : State) (f : Fw → Fw) : (s.modFw f).rings = s.rings := rfl
@[simp] theorem modFw_sent (s : State) (f : Fw → Fw) : (s.modFw f).sent = s.sent := rfl
@[simp] theorem modFw_mgmtSeen (s : State) (f : Fw → Fw) : (s.modFw f).mgmtSeen = s.mgmtSeen := rfl
@[simp] theorem modFw_peerReplies (s : State) (f : Fw → Fw) : (s.modFw f).peerReplies = s.peerReplies := rfl
@[simp] theorem modFw_packets (s : State) (f : Fw → Fw) : (s.modFw f).packets = s.packets := rfl
@[simp] theorem modFw_delivered (s : State) (f : Fw → Fw) : (s.modFw f).delivered = s.delivered := rfl
@[simp] theorem modFw_links (s : State) (f : Fw → Fw) : (s.modFw f).links = s.links := rfl
@[simp] theorem modFw_fab (s : State) (f : Fw → Fw) : (s.modFw f).fab = s.fab := rfl
@[simp] theorem modFw_shareColl (s : State) (f : Fw → Fw) : (s.modFw f).shareColl = s.shareColl := rfl
@[simp] theorem modFw_shareBulk (s : State) (f : Fw → Fw) : (s.modFw f).shareBulk = s.shareBulk := rfl
@[simp] theorem modFw_shareNext (s : State) (f : Fw → Fw) : (s.modFw f).shareNext = s.shareNext := rfl
@[simp] theorem modFw_nseqNext (s : State) (f : Fw → Fw) : (s.modFw f).nseqNext = s.nseqNext := rfl
@[simp] theorem modFw_nseqSeen (s : State) (f : Fw → Fw) : (s.modFw f).nseqSeen = s.nseqSeen := rfl
@[simp] theorem modFw_unreachCnt (s : State) (f : Fw → Fw) : (s.modFw f).unreachCnt = s.unreachCnt := rfl
@[simp] theorem modFw_escape (s : State) (f : Fw → Fw) : (s.modFw f).escape = s.escape := rfl
@[simp] theorem modFw_flueCore (s : State) (f : Fw → Fw) : (s.modFw f).flueCore = s.flueCore := rfl
@[simp] theorem modFw_fluePort (s : State) (f : Fw → Fw) : (s.modFw f).fluePort = s.fluePort := rfl
@[simp] theorem modFw_flueNext (s : State) (f : Fw → Fw) : (s.modFw f).flueNext = s.flueNext := rfl
@[simp] theorem modFw_engines (s : State) (f : Fw → Fw) : (s.modFw f).engines = s.engines := rfl
@[simp] theorem modFw_colls (s : State) (f : Fw → Fw) : (s.modFw f).colls = s.colls := rfl
@[simp] theorem modFw_time (s : State) (f : Fw → Fw) : (s.modFw f).time = s.time := rfl
@[simp] theorem modFw_dev (s : State) (f : Fw → Fw) : (s.modFw f).dev = s.dev := rfl
@[simp] theorem modFw_trcs (s : State) (f : Fw → Fw) : (s.modFw f).trcs = s.trcs := rfl
@[simp] theorem modFw_capEng (s : State) (f : Fw → Fw) : (s.modFw f).capEng = s.capEng := rfl
@[simp] theorem modFw_ash (s : State) (f : Fw → Fw) : (s.modFw f).ash = s.ash := rfl
@[simp] theorem modFw_digestFailed (s : State) (f : Fw → Fw) : (s.modFw f).digestFailed = s.digestFailed := rfl
@[simp] theorem modFw_store (s : State) (f : Fw → Fw) : (s.modFw f).store = s.store := rfl
@[simp] theorem modFw_fw (s : State) (f : Fw → Fw) : (s.modFw f).fw = f s.fw := rfl
@[simp] theorem modFw_flash (s : State) (f : Fw → Fw) : (s.modFw f).flash = s.flash := rfl
@[simp] theorem modFw_fenceList (s : State) (f : Fw → Fw) : (s.modFw f).fenceList = s.fenceList := rfl
@[simp] theorem modFw_flashOps (s : State) (f : Fw → Fw) : (s.modFw f).flashOps = s.flashOps := rfl
@[simp] theorem modFw_recovery (s : State) (f : Fw → Fw) : (s.modFw f).recovery = s.recovery := rfl
@[simp] theorem modFw_power (s : State) (f : Fw → Fw) : (s.modFw f).power = s.power := rfl
@[simp] theorem modFw_i3c (s : State) (f : Fw → Fw) : (s.modFw f).i3c = s.i3c := rfl
@[simp] theorem modFw_pcie (s : State) (f : Fw → Fw) : (s.modFw f).pcie = s.pcie := rfl
@[simp] theorem modFw_wardens (s : State) (f : Fw → Fw) : (s.modFw f).wardens = s.wardens := rfl

/-! `modPower` changes the power record and nothing else. -/

@[simp] theorem modPower_pending (s : State) (f : Power → Power) : (s.modPower f).pending = s.pending := rfl
@[simp] theorem modPower_free (s : State) (f : Power → Power) : (s.modPower f).free = s.free := rfl
@[simp] theorem modPower_now (s : State) (f : Power → Power) : (s.modPower f).now = s.now := rfl
@[simp] theorem modPower_clockAt (s : State) (f : Power → Power) : (s.modPower f).clockAt = s.clockAt := rfl
@[simp] theorem modPower_mtime (s : State) (f : Power → Power) : (s.modPower f).mtime = s.mtime := rfl
@[simp] theorem modPower_fuses (s : State) (f : Power → Power) : (s.modPower f).fuses = s.fuses := rfl
@[simp] theorem modPower_pins (s : State) (f : Power → Power) : (s.modPower f).pins = s.pins := rfl
@[simp] theorem modPower_inReset (s : State) (f : Power → Power) : (s.modPower f).inReset = s.inReset := rfl
@[simp] theorem modPower_cores (s : State) (f : Power → Power) : (s.modPower f).cores = s.cores := rfl
@[simp] theorem modPower_availGen (s : State) (f : Power → Power) : (s.modPower f).availGen = s.availGen := rfl
@[simp] theorem modPower_mem (s : State) (f : Power → Power) : (s.modPower f).mem = s.mem := rfl
@[simp] theorem modPower_blks (s : State) (f : Power → Power) : (s.modPower f).blks = s.blks := rfl
@[simp] theorem modPower_objs (s : State) (f : Power → Power) : (s.modPower f).objs = s.objs := rfl
@[simp] theorem modPower_intents (s : State) (f : Power → Power) : (s.modPower f).intents = s.intents := rfl
@[simp] theorem modPower_moves (s : State) (f : Power → Power) : (s.modPower f).moves = s.moves := rfl
@[simp] theorem modPower_moverFailed (s : State) (f : Power → Power) : (s.modPower f).moverFailed = s.moverFailed := rfl
@[simp] theorem modPower_moveAborted (s : State) (f : Power → Power) : (s.modPower f).moveAborted = s.moveAborted := rfl
@[simp] theorem modPower_poison (s : State) (f : Power → Power) : (s.modPower f).poison = s.poison := rfl
@[simp] theorem modPower_memReg (s : State) (f : Power → Power) : (s.modPower f).memReg = s.memReg := rfl
@[simp] theorem modPower_kept (s : State) (f : Power → Power) : (s.modPower f).kept = s.kept := rfl
@[simp] theorem modPower_oldFrames (s : State) (f : Power → Power) : (s.modPower f).oldFrames = s.oldFrames := rfl
@[simp] theorem modPower_stalled (s : State) (f : Power → Power) : (s.modPower f).stalled = s.stalled := rfl
@[simp] theorem modPower_reserveKept (s : State) (f : Power → Power) : (s.modPower f).reserveKept = s.reserveKept := rfl
@[simp] theorem modPower_reserve (s : State) (f : Power → Power) : (s.modPower f).reserve = s.reserve := rfl
@[simp] theorem modPower_jobs (s : State) (f : Power → Power) : (s.modPower f).jobs = s.jobs := rfl
@[simp] theorem modPower_controls (s : State) (f : Power → Power) : (s.modPower f).controls = s.controls := rfl
@[simp] theorem modPower_loads (s : State) (f : Power → Power) : (s.modPower f).loads = s.loads := rfl
@[simp] theorem modPower_outs (s : State) (f : Power → Power) : (s.modPower f).outs = s.outs := rfl
@[simp] theorem modPower_nextUid (s : State) (f : Power → Power) : (s.modPower f).nextUid = s.nextUid := rfl
@[simp] theorem modPower_waitq (s : State) (f : Power → Power) : (s.modPower f).waitq = s.waitq := rfl
@[simp] theorem modPower_rings (s : State) (f : Power → Power) : (s.modPower f).rings = s.rings := rfl
@[simp] theorem modPower_sent (s : State) (f : Power → Power) : (s.modPower f).sent = s.sent := rfl
@[simp] theorem modPower_mgmtSeen (s : State) (f : Power → Power) : (s.modPower f).mgmtSeen = s.mgmtSeen := rfl
@[simp] theorem modPower_peerReplies (s : State) (f : Power → Power) : (s.modPower f).peerReplies = s.peerReplies := rfl
@[simp] theorem modPower_packets (s : State) (f : Power → Power) : (s.modPower f).packets = s.packets := rfl
@[simp] theorem modPower_delivered (s : State) (f : Power → Power) : (s.modPower f).delivered = s.delivered := rfl
@[simp] theorem modPower_links (s : State) (f : Power → Power) : (s.modPower f).links = s.links := rfl
@[simp] theorem modPower_fab (s : State) (f : Power → Power) : (s.modPower f).fab = s.fab := rfl
@[simp] theorem modPower_shareColl (s : State) (f : Power → Power) : (s.modPower f).shareColl = s.shareColl := rfl
@[simp] theorem modPower_shareBulk (s : State) (f : Power → Power) : (s.modPower f).shareBulk = s.shareBulk := rfl
@[simp] theorem modPower_shareNext (s : State) (f : Power → Power) : (s.modPower f).shareNext = s.shareNext := rfl
@[simp] theorem modPower_nseqNext (s : State) (f : Power → Power) : (s.modPower f).nseqNext = s.nseqNext := rfl
@[simp] theorem modPower_nseqSeen (s : State) (f : Power → Power) : (s.modPower f).nseqSeen = s.nseqSeen := rfl
@[simp] theorem modPower_unreachCnt (s : State) (f : Power → Power) : (s.modPower f).unreachCnt = s.unreachCnt := rfl
@[simp] theorem modPower_escape (s : State) (f : Power → Power) : (s.modPower f).escape = s.escape := rfl
@[simp] theorem modPower_flueCore (s : State) (f : Power → Power) : (s.modPower f).flueCore = s.flueCore := rfl
@[simp] theorem modPower_fluePort (s : State) (f : Power → Power) : (s.modPower f).fluePort = s.fluePort := rfl
@[simp] theorem modPower_flueNext (s : State) (f : Power → Power) : (s.modPower f).flueNext = s.flueNext := rfl
@[simp] theorem modPower_engines (s : State) (f : Power → Power) : (s.modPower f).engines = s.engines := rfl
@[simp] theorem modPower_colls (s : State) (f : Power → Power) : (s.modPower f).colls = s.colls := rfl
@[simp] theorem modPower_time (s : State) (f : Power → Power) : (s.modPower f).time = s.time := rfl
@[simp] theorem modPower_dev (s : State) (f : Power → Power) : (s.modPower f).dev = s.dev := rfl
@[simp] theorem modPower_trcs (s : State) (f : Power → Power) : (s.modPower f).trcs = s.trcs := rfl
@[simp] theorem modPower_capEng (s : State) (f : Power → Power) : (s.modPower f).capEng = s.capEng := rfl
@[simp] theorem modPower_ash (s : State) (f : Power → Power) : (s.modPower f).ash = s.ash := rfl
@[simp] theorem modPower_digestFailed (s : State) (f : Power → Power) : (s.modPower f).digestFailed = s.digestFailed := rfl
@[simp] theorem modPower_store (s : State) (f : Power → Power) : (s.modPower f).store = s.store := rfl
@[simp] theorem modPower_fw (s : State) (f : Power → Power) : (s.modPower f).fw = s.fw := rfl
@[simp] theorem modPower_flash (s : State) (f : Power → Power) : (s.modPower f).flash = s.flash := rfl
@[simp] theorem modPower_fenceList (s : State) (f : Power → Power) : (s.modPower f).fenceList = s.fenceList := rfl
@[simp] theorem modPower_flashOps (s : State) (f : Power → Power) : (s.modPower f).flashOps = s.flashOps := rfl
@[simp] theorem modPower_recovery (s : State) (f : Power → Power) : (s.modPower f).recovery = s.recovery := rfl
@[simp] theorem modPower_power (s : State) (f : Power → Power) : (s.modPower f).power = f s.power := rfl
@[simp] theorem modPower_i3c (s : State) (f : Power → Power) : (s.modPower f).i3c = s.i3c := rfl
@[simp] theorem modPower_pcie (s : State) (f : Power → Power) : (s.modPower f).pcie = s.pcie := rfl
@[simp] theorem modPower_wardens (s : State) (f : Power → Power) : (s.modPower f).wardens = s.wardens := rfl

/-! `send` changes the outbox and nothing else. -/

@[simp] theorem send_pending (s : State) (x : Sent) : (s.send x).pending = s.pending := rfl
@[simp] theorem send_free (s : State) (x : Sent) : (s.send x).free = s.free := rfl
@[simp] theorem send_now (s : State) (x : Sent) : (s.send x).now = s.now := rfl
@[simp] theorem send_clockAt (s : State) (x : Sent) : (s.send x).clockAt = s.clockAt := rfl
@[simp] theorem send_mtime (s : State) (x : Sent) : (s.send x).mtime = s.mtime := rfl
@[simp] theorem send_fuses (s : State) (x : Sent) : (s.send x).fuses = s.fuses := rfl
@[simp] theorem send_pins (s : State) (x : Sent) : (s.send x).pins = s.pins := rfl
@[simp] theorem send_inReset (s : State) (x : Sent) : (s.send x).inReset = s.inReset := rfl
@[simp] theorem send_cores (s : State) (x : Sent) : (s.send x).cores = s.cores := rfl
@[simp] theorem send_availGen (s : State) (x : Sent) : (s.send x).availGen = s.availGen := rfl
@[simp] theorem send_mem (s : State) (x : Sent) : (s.send x).mem = s.mem := rfl
@[simp] theorem send_blks (s : State) (x : Sent) : (s.send x).blks = s.blks := rfl
@[simp] theorem send_objs (s : State) (x : Sent) : (s.send x).objs = s.objs := rfl
@[simp] theorem send_intents (s : State) (x : Sent) : (s.send x).intents = s.intents := rfl
@[simp] theorem send_moves (s : State) (x : Sent) : (s.send x).moves = s.moves := rfl
@[simp] theorem send_moverFailed (s : State) (x : Sent) : (s.send x).moverFailed = s.moverFailed := rfl
@[simp] theorem send_moveAborted (s : State) (x : Sent) : (s.send x).moveAborted = s.moveAborted := rfl
@[simp] theorem send_poison (s : State) (x : Sent) : (s.send x).poison = s.poison := rfl
@[simp] theorem send_memReg (s : State) (x : Sent) : (s.send x).memReg = s.memReg := rfl
@[simp] theorem send_kept (s : State) (x : Sent) : (s.send x).kept = s.kept := rfl
@[simp] theorem send_oldFrames (s : State) (x : Sent) : (s.send x).oldFrames = s.oldFrames := rfl
@[simp] theorem send_stalled (s : State) (x : Sent) : (s.send x).stalled = s.stalled := rfl
@[simp] theorem send_reserveKept (s : State) (x : Sent) : (s.send x).reserveKept = s.reserveKept := rfl
@[simp] theorem send_reserve (s : State) (x : Sent) : (s.send x).reserve = s.reserve := rfl
@[simp] theorem send_jobs (s : State) (x : Sent) : (s.send x).jobs = s.jobs := rfl
@[simp] theorem send_controls (s : State) (x : Sent) : (s.send x).controls = s.controls := rfl
@[simp] theorem send_loads (s : State) (x : Sent) : (s.send x).loads = s.loads := rfl
@[simp] theorem send_outs (s : State) (x : Sent) : (s.send x).outs = s.outs := rfl
@[simp] theorem send_nextUid (s : State) (x : Sent) : (s.send x).nextUid = s.nextUid := rfl
@[simp] theorem send_waitq (s : State) (x : Sent) : (s.send x).waitq = s.waitq := rfl
@[simp] theorem send_rings (s : State) (x : Sent) : (s.send x).rings = s.rings := rfl
@[simp] theorem send_sent (s : State) (x : Sent) : (s.send x).sent = x :: s.sent := rfl
@[simp] theorem send_mgmtSeen (s : State) (x : Sent) : (s.send x).mgmtSeen = s.mgmtSeen := rfl
@[simp] theorem send_peerReplies (s : State) (x : Sent) : (s.send x).peerReplies = s.peerReplies := rfl
@[simp] theorem send_packets (s : State) (x : Sent) : (s.send x).packets = s.packets := rfl
@[simp] theorem send_delivered (s : State) (x : Sent) : (s.send x).delivered = s.delivered := rfl
@[simp] theorem send_links (s : State) (x : Sent) : (s.send x).links = s.links := rfl
@[simp] theorem send_fab (s : State) (x : Sent) : (s.send x).fab = s.fab := rfl
@[simp] theorem send_shareColl (s : State) (x : Sent) : (s.send x).shareColl = s.shareColl := rfl
@[simp] theorem send_shareBulk (s : State) (x : Sent) : (s.send x).shareBulk = s.shareBulk := rfl
@[simp] theorem send_shareNext (s : State) (x : Sent) : (s.send x).shareNext = s.shareNext := rfl
@[simp] theorem send_nseqNext (s : State) (x : Sent) : (s.send x).nseqNext = s.nseqNext := rfl
@[simp] theorem send_nseqSeen (s : State) (x : Sent) : (s.send x).nseqSeen = s.nseqSeen := rfl
@[simp] theorem send_unreachCnt (s : State) (x : Sent) : (s.send x).unreachCnt = s.unreachCnt := rfl
@[simp] theorem send_escape (s : State) (x : Sent) : (s.send x).escape = s.escape := rfl
@[simp] theorem send_flueCore (s : State) (x : Sent) : (s.send x).flueCore = s.flueCore := rfl
@[simp] theorem send_fluePort (s : State) (x : Sent) : (s.send x).fluePort = s.fluePort := rfl
@[simp] theorem send_flueNext (s : State) (x : Sent) : (s.send x).flueNext = s.flueNext := rfl
@[simp] theorem send_engines (s : State) (x : Sent) : (s.send x).engines = s.engines := rfl
@[simp] theorem send_colls (s : State) (x : Sent) : (s.send x).colls = s.colls := rfl
@[simp] theorem send_time (s : State) (x : Sent) : (s.send x).time = s.time := rfl
@[simp] theorem send_dev (s : State) (x : Sent) : (s.send x).dev = s.dev := rfl
@[simp] theorem send_trcs (s : State) (x : Sent) : (s.send x).trcs = s.trcs := rfl
@[simp] theorem send_capEng (s : State) (x : Sent) : (s.send x).capEng = s.capEng := rfl
@[simp] theorem send_ash (s : State) (x : Sent) : (s.send x).ash = s.ash := rfl
@[simp] theorem send_digestFailed (s : State) (x : Sent) : (s.send x).digestFailed = s.digestFailed := rfl
@[simp] theorem send_store (s : State) (x : Sent) : (s.send x).store = s.store := rfl
@[simp] theorem send_fw (s : State) (x : Sent) : (s.send x).fw = s.fw := rfl
@[simp] theorem send_flash (s : State) (x : Sent) : (s.send x).flash = s.flash := rfl
@[simp] theorem send_fenceList (s : State) (x : Sent) : (s.send x).fenceList = s.fenceList := rfl
@[simp] theorem send_flashOps (s : State) (x : Sent) : (s.send x).flashOps = s.flashOps := rfl
@[simp] theorem send_recovery (s : State) (x : Sent) : (s.send x).recovery = s.recovery := rfl
@[simp] theorem send_power (s : State) (x : Sent) : (s.send x).power = s.power := rfl
@[simp] theorem send_i3c (s : State) (x : Sent) : (s.send x).i3c = s.i3c := rfl
@[simp] theorem send_pcie (s : State) (x : Sent) : (s.send x).pcie = s.pcie := rfl
@[simp] theorem send_wardens (s : State) (x : Sent) : (s.send x).wardens = s.wardens := rfl

/-! `devCount` changes the device counters and nothing else. -/

@[simp] theorem devCount_pending (s : State) (e i n : Nat) : (s.devCount e i n).pending = s.pending := rfl
@[simp] theorem devCount_free (s : State) (e i n : Nat) : (s.devCount e i n).free = s.free := rfl
@[simp] theorem devCount_now (s : State) (e i n : Nat) : (s.devCount e i n).now = s.now := rfl
@[simp] theorem devCount_clockAt (s : State) (e i n : Nat) : (s.devCount e i n).clockAt = s.clockAt := rfl
@[simp] theorem devCount_mtime (s : State) (e i n : Nat) : (s.devCount e i n).mtime = s.mtime := rfl
@[simp] theorem devCount_fuses (s : State) (e i n : Nat) : (s.devCount e i n).fuses = s.fuses := rfl
@[simp] theorem devCount_pins (s : State) (e i n : Nat) : (s.devCount e i n).pins = s.pins := rfl
@[simp] theorem devCount_inReset (s : State) (e i n : Nat) : (s.devCount e i n).inReset = s.inReset := rfl
@[simp] theorem devCount_cores (s : State) (e i n : Nat) : (s.devCount e i n).cores = s.cores := rfl
@[simp] theorem devCount_availGen (s : State) (e i n : Nat) : (s.devCount e i n).availGen = s.availGen := rfl
@[simp] theorem devCount_mem (s : State) (e i n : Nat) : (s.devCount e i n).mem = s.mem := rfl
@[simp] theorem devCount_blks (s : State) (e i n : Nat) : (s.devCount e i n).blks = s.blks := rfl
@[simp] theorem devCount_objs (s : State) (e i n : Nat) : (s.devCount e i n).objs = s.objs := rfl
@[simp] theorem devCount_intents (s : State) (e i n : Nat) : (s.devCount e i n).intents = s.intents := rfl
@[simp] theorem devCount_moves (s : State) (e i n : Nat) : (s.devCount e i n).moves = s.moves := rfl
@[simp] theorem devCount_moverFailed (s : State) (e i n : Nat) : (s.devCount e i n).moverFailed = s.moverFailed := rfl
@[simp] theorem devCount_moveAborted (s : State) (e i n : Nat) : (s.devCount e i n).moveAborted = s.moveAborted := rfl
@[simp] theorem devCount_poison (s : State) (e i n : Nat) : (s.devCount e i n).poison = s.poison := rfl
@[simp] theorem devCount_memReg (s : State) (e i n : Nat) : (s.devCount e i n).memReg = s.memReg := rfl
@[simp] theorem devCount_kept (s : State) (e i n : Nat) : (s.devCount e i n).kept = s.kept := rfl
@[simp] theorem devCount_oldFrames (s : State) (e i n : Nat) : (s.devCount e i n).oldFrames = s.oldFrames := rfl
@[simp] theorem devCount_stalled (s : State) (e i n : Nat) : (s.devCount e i n).stalled = s.stalled := rfl
@[simp] theorem devCount_reserveKept (s : State) (e i n : Nat) : (s.devCount e i n).reserveKept = s.reserveKept := rfl
@[simp] theorem devCount_reserve (s : State) (e i n : Nat) : (s.devCount e i n).reserve = s.reserve := rfl
@[simp] theorem devCount_jobs (s : State) (e i n : Nat) : (s.devCount e i n).jobs = s.jobs := rfl
@[simp] theorem devCount_controls (s : State) (e i n : Nat) : (s.devCount e i n).controls = s.controls := rfl
@[simp] theorem devCount_loads (s : State) (e i n : Nat) : (s.devCount e i n).loads = s.loads := rfl
@[simp] theorem devCount_outs (s : State) (e i n : Nat) : (s.devCount e i n).outs = s.outs := rfl
@[simp] theorem devCount_nextUid (s : State) (e i n : Nat) : (s.devCount e i n).nextUid = s.nextUid := rfl
@[simp] theorem devCount_waitq (s : State) (e i n : Nat) : (s.devCount e i n).waitq = s.waitq := rfl
@[simp] theorem devCount_rings (s : State) (e i n : Nat) : (s.devCount e i n).rings = s.rings := rfl
@[simp] theorem devCount_sent (s : State) (e i n : Nat) : (s.devCount e i n).sent = s.sent := rfl
@[simp] theorem devCount_mgmtSeen (s : State) (e i n : Nat) : (s.devCount e i n).mgmtSeen = s.mgmtSeen := rfl
@[simp] theorem devCount_peerReplies (s : State) (e i n : Nat) : (s.devCount e i n).peerReplies = s.peerReplies := rfl
@[simp] theorem devCount_packets (s : State) (e i n : Nat) : (s.devCount e i n).packets = s.packets := rfl
@[simp] theorem devCount_delivered (s : State) (e i n : Nat) : (s.devCount e i n).delivered = s.delivered := rfl
@[simp] theorem devCount_links (s : State) (e i n : Nat) : (s.devCount e i n).links = s.links := rfl
@[simp] theorem devCount_fab (s : State) (e i n : Nat) : (s.devCount e i n).fab = s.fab := rfl
@[simp] theorem devCount_shareColl (s : State) (e i n : Nat) : (s.devCount e i n).shareColl = s.shareColl := rfl
@[simp] theorem devCount_shareBulk (s : State) (e i n : Nat) : (s.devCount e i n).shareBulk = s.shareBulk := rfl
@[simp] theorem devCount_shareNext (s : State) (e i n : Nat) : (s.devCount e i n).shareNext = s.shareNext := rfl
@[simp] theorem devCount_nseqNext (s : State) (e i n : Nat) : (s.devCount e i n).nseqNext = s.nseqNext := rfl
@[simp] theorem devCount_nseqSeen (s : State) (e i n : Nat) : (s.devCount e i n).nseqSeen = s.nseqSeen := rfl
@[simp] theorem devCount_unreachCnt (s : State) (e i n : Nat) : (s.devCount e i n).unreachCnt = s.unreachCnt := rfl
@[simp] theorem devCount_escape (s : State) (e i n : Nat) : (s.devCount e i n).escape = s.escape := rfl
@[simp] theorem devCount_flueCore (s : State) (e i n : Nat) : (s.devCount e i n).flueCore = s.flueCore := rfl
@[simp] theorem devCount_fluePort (s : State) (e i n : Nat) : (s.devCount e i n).fluePort = s.fluePort := rfl
@[simp] theorem devCount_flueNext (s : State) (e i n : Nat) : (s.devCount e i n).flueNext = s.flueNext := rfl
@[simp] theorem devCount_engines (s : State) (e i n : Nat) : (s.devCount e i n).engines = s.engines := rfl
@[simp] theorem devCount_colls (s : State) (e i n : Nat) : (s.devCount e i n).colls = s.colls := rfl
@[simp] theorem devCount_time (s : State) (e i n : Nat) : (s.devCount e i n).time = s.time := rfl
@[simp] theorem devCount_dev (s : State) (e i n : Nat) : (s.devCount e i n).dev = { s.dev with cnt := (s.dev.cnt.zipIdx).map fun c => if devHit (s.dev.sel.getD c.2 0) e i then bump64 c.1 n else c.1 } := rfl
@[simp] theorem devCount_trcs (s : State) (e i n : Nat) : (s.devCount e i n).trcs = s.trcs := rfl
@[simp] theorem devCount_capEng (s : State) (e i n : Nat) : (s.devCount e i n).capEng = s.capEng := rfl
@[simp] theorem devCount_ash (s : State) (e i n : Nat) : (s.devCount e i n).ash = s.ash := rfl
@[simp] theorem devCount_digestFailed (s : State) (e i n : Nat) : (s.devCount e i n).digestFailed = s.digestFailed := rfl
@[simp] theorem devCount_store (s : State) (e i n : Nat) : (s.devCount e i n).store = s.store := rfl
@[simp] theorem devCount_fw (s : State) (e i n : Nat) : (s.devCount e i n).fw = s.fw := rfl
@[simp] theorem devCount_flash (s : State) (e i n : Nat) : (s.devCount e i n).flash = s.flash := rfl
@[simp] theorem devCount_fenceList (s : State) (e i n : Nat) : (s.devCount e i n).fenceList = s.fenceList := rfl
@[simp] theorem devCount_flashOps (s : State) (e i n : Nat) : (s.devCount e i n).flashOps = s.flashOps := rfl
@[simp] theorem devCount_recovery (s : State) (e i n : Nat) : (s.devCount e i n).recovery = s.recovery := rfl
@[simp] theorem devCount_power (s : State) (e i n : Nat) : (s.devCount e i n).power = s.power := rfl
@[simp] theorem devCount_i3c (s : State) (e i n : Nat) : (s.devCount e i n).i3c = s.i3c := rfl
@[simp] theorem devCount_pcie (s : State) (e i n : Nat) : (s.devCount e i n).pcie = s.pcie := rfl
@[simp] theorem devCount_wardens (s : State) (e i n : Nat) : (s.devCount e i n).wardens = s.wardens := rfl

/-! `seeded` changes the counter of free values and nothing else. -/

@[simp] theorem seeded_pending (s : State) : s.seeded.pending = s.pending := rfl
@[simp] theorem seeded_free (s : State) : s.seeded.free = s.free + 1 := rfl
@[simp] theorem seeded_now (s : State) : s.seeded.now = s.now := rfl
@[simp] theorem seeded_clockAt (s : State) : s.seeded.clockAt = s.clockAt := rfl
@[simp] theorem seeded_mtime (s : State) : s.seeded.mtime = s.mtime := rfl
@[simp] theorem seeded_fuses (s : State) : s.seeded.fuses = s.fuses := rfl
@[simp] theorem seeded_pins (s : State) : s.seeded.pins = s.pins := rfl
@[simp] theorem seeded_inReset (s : State) : s.seeded.inReset = s.inReset := rfl
@[simp] theorem seeded_cores (s : State) : s.seeded.cores = s.cores := rfl
@[simp] theorem seeded_availGen (s : State) : s.seeded.availGen = s.availGen := rfl
@[simp] theorem seeded_mem (s : State) : s.seeded.mem = s.mem := rfl
@[simp] theorem seeded_blks (s : State) : s.seeded.blks = s.blks := rfl
@[simp] theorem seeded_objs (s : State) : s.seeded.objs = s.objs := rfl
@[simp] theorem seeded_intents (s : State) : s.seeded.intents = s.intents := rfl
@[simp] theorem seeded_moves (s : State) : s.seeded.moves = s.moves := rfl
@[simp] theorem seeded_moverFailed (s : State) : s.seeded.moverFailed = s.moverFailed := rfl
@[simp] theorem seeded_moveAborted (s : State) : s.seeded.moveAborted = s.moveAborted := rfl
@[simp] theorem seeded_poison (s : State) : s.seeded.poison = s.poison := rfl
@[simp] theorem seeded_memReg (s : State) : s.seeded.memReg = s.memReg := rfl
@[simp] theorem seeded_kept (s : State) : s.seeded.kept = s.kept := rfl
@[simp] theorem seeded_oldFrames (s : State) : s.seeded.oldFrames = s.oldFrames := rfl
@[simp] theorem seeded_stalled (s : State) : s.seeded.stalled = s.stalled := rfl
@[simp] theorem seeded_reserveKept (s : State) : s.seeded.reserveKept = s.reserveKept := rfl
@[simp] theorem seeded_reserve (s : State) : s.seeded.reserve = s.reserve := rfl
@[simp] theorem seeded_jobs (s : State) : s.seeded.jobs = s.jobs := rfl
@[simp] theorem seeded_controls (s : State) : s.seeded.controls = s.controls := rfl
@[simp] theorem seeded_loads (s : State) : s.seeded.loads = s.loads := rfl
@[simp] theorem seeded_outs (s : State) : s.seeded.outs = s.outs := rfl
@[simp] theorem seeded_nextUid (s : State) : s.seeded.nextUid = s.nextUid := rfl
@[simp] theorem seeded_waitq (s : State) : s.seeded.waitq = s.waitq := rfl
@[simp] theorem seeded_rings (s : State) : s.seeded.rings = s.rings := rfl
@[simp] theorem seeded_sent (s : State) : s.seeded.sent = s.sent := rfl
@[simp] theorem seeded_mgmtSeen (s : State) : s.seeded.mgmtSeen = s.mgmtSeen := rfl
@[simp] theorem seeded_peerReplies (s : State) : s.seeded.peerReplies = s.peerReplies := rfl
@[simp] theorem seeded_packets (s : State) : s.seeded.packets = s.packets := rfl
@[simp] theorem seeded_delivered (s : State) : s.seeded.delivered = s.delivered := rfl
@[simp] theorem seeded_links (s : State) : s.seeded.links = s.links := rfl
@[simp] theorem seeded_fab (s : State) : s.seeded.fab = s.fab := rfl
@[simp] theorem seeded_shareColl (s : State) : s.seeded.shareColl = s.shareColl := rfl
@[simp] theorem seeded_shareBulk (s : State) : s.seeded.shareBulk = s.shareBulk := rfl
@[simp] theorem seeded_shareNext (s : State) : s.seeded.shareNext = s.shareNext := rfl
@[simp] theorem seeded_nseqNext (s : State) : s.seeded.nseqNext = s.nseqNext := rfl
@[simp] theorem seeded_nseqSeen (s : State) : s.seeded.nseqSeen = s.nseqSeen := rfl
@[simp] theorem seeded_unreachCnt (s : State) : s.seeded.unreachCnt = s.unreachCnt := rfl
@[simp] theorem seeded_escape (s : State) : s.seeded.escape = s.escape := rfl
@[simp] theorem seeded_flueCore (s : State) : s.seeded.flueCore = s.flueCore := rfl
@[simp] theorem seeded_fluePort (s : State) : s.seeded.fluePort = s.fluePort := rfl
@[simp] theorem seeded_flueNext (s : State) : s.seeded.flueNext = s.flueNext := rfl
@[simp] theorem seeded_engines (s : State) : s.seeded.engines = s.engines := rfl
@[simp] theorem seeded_colls (s : State) : s.seeded.colls = s.colls := rfl
@[simp] theorem seeded_time (s : State) : s.seeded.time = s.time := rfl
@[simp] theorem seeded_dev (s : State) : s.seeded.dev = s.dev := rfl
@[simp] theorem seeded_trcs (s : State) : s.seeded.trcs = s.trcs := rfl
@[simp] theorem seeded_capEng (s : State) : s.seeded.capEng = s.capEng := rfl
@[simp] theorem seeded_ash (s : State) : s.seeded.ash = s.ash := rfl
@[simp] theorem seeded_digestFailed (s : State) : s.seeded.digestFailed = s.digestFailed := rfl
@[simp] theorem seeded_store (s : State) : s.seeded.store = s.store := rfl
@[simp] theorem seeded_fw (s : State) : s.seeded.fw = s.fw := rfl
@[simp] theorem seeded_flash (s : State) : s.seeded.flash = s.flash := rfl
@[simp] theorem seeded_fenceList (s : State) : s.seeded.fenceList = s.fenceList := rfl
@[simp] theorem seeded_flashOps (s : State) : s.seeded.flashOps = s.flashOps := rfl
@[simp] theorem seeded_recovery (s : State) : s.seeded.recovery = s.recovery := rfl
@[simp] theorem seeded_power (s : State) : s.seeded.power = s.power := rfl
@[simp] theorem seeded_i3c (s : State) : s.seeded.i3c = s.i3c := rfl
@[simp] theorem seeded_pcie (s : State) : s.seeded.pcie = s.pcie := rfl
@[simp] theorem seeded_wardens (s : State) : s.seeded.wardens = s.wardens := rfl

end State

end Sys2Proof.Machine
end

