-- ==== Sys2Proof/Tests/Slice0.lean ====
section
/-! SUPPORT. Tests: ill-formed commands that WellFormed refuses, states that meet the hypotheses of the statements, and results that the
manual's tables and worked examples give. -/

namespace Sys2Proof.Tests

open Sys2Proof Sys2Proof.Machine Sys2Proof.Claims

/-! Ill-formed commands: for each check of each command one that breaks it. -/

def zeros (n : Nat) : List Byte := List.replicate n 0
def hdr : Hdr := ⟨63, 7, 0, none, false, none⟩
def badHdr : Hdr := { hdr with ring := 64 }
def bootEnv : BootEnv := ⟨false, true, [], 4095, 0, 15⟩
def badBootEnv : BootEnv := { bootEnv with nvme := 16 }
def load : JobLoad := ⟨0, 0, 0, 1, 1, 0, 0, 0, 0, 0, 0, 0, 1, 1, 1, []⟩
def badLoad : JobLoad := { load with priority := 4 }
def map : ObjMap := ⟨0x100000000000, 1, 0, 0, 0, 32, 0, 1, 1⟩
def badMap : ObjMap := { map with group := 256 }
def src : SnapSrc := ⟨1, 1, 0, 0, 0, 0, 0, 0⟩
def badSrc : SnapSrc := { src with dests := 256 }

theorem test_wf_header : ([{ hdr with ring := 64 }, { hdr with tag := 2 ^ 32 }, { hdr with job := 8 }, { hdr with rt := some (2 ^ 64) },
    { hdr with dl := some (2 ^ 32) }].all fun h => !h.wf) = true := by decide

theorem test_wf_job_load : ([{ load with program := 2 ^ 64 }, { load with seed := 2 ^ 64 }, { load with argument := 2 ^ 64 }, { load with gx := 256 },
    { load with gy := 256 }, { load with flags := 256 }, { load with leads := 256 }, { load with ox := 256 }, { load with oy := 256 },
    { load with oz := 256 }, { load with ex := 256 }, { load with ey := 256 }, { load with ez := 256 }, { load with priority := 4 },
    { load with jobTag := 65536 }, { load with leadCells := List.replicate 17 0 }, { load with leadCells := [65536] }].all fun p => !p.wf) = true := by
  decide

theorem test_wf_obj_map : ([{ map with first := 2 ^ 64 }, { map with count := 2 ^ 32 }, { map with rows := 2 ^ 32 }, { map with cols := 2 ^ 32 },
    { map with layout := 256 }, { map with fmt := 256 }, { map with block := 256 }, { map with group := 256 }, { map with flags := 256 }].all
      fun p => !p.wf) = true := by decide

theorem test_wf_snap_src : ([{ src with id := 2 ^ 32 }, { src with dests := 256 }, { src with bx := 256 }, { src with bY := 256 }, { src with bz := 256 },
    { src with ctrl := 256 }, { src with ns := 2 ^ 32 }, { src with lba := 2 ^ 64 }].all fun p => !p.wf) = true := by decide

theorem test_wf_boot : ([{ bootEnv with modules := [⟨16, 32, 1, 1⟩] }, { bootEnv with hbms := 4096 }, { bootEnv with nvme := 16 }].all
    fun b => !b.wf) = true := by decide

theorem test_wf_parts_accepted : (hdr.wf && load.wf && map.wf && src.wf && bootEnv.wf) = true := by decide

theorem test_wf_refuses_1 : (([
   .bundleIssue 576, .nop 576, .add 576 0 0 0, .sub 576 0 0 0, .andOp 576 0 0 0, .orOp 576 0 0 0, .xor 576 0 0 0, .shl 576 0 0 0,
   .shr 576 0 0 0, .sra 576 0 0 0, .mul 576 0 0 0, .min 576 0 0 0, .max 576 0 0 0, .addi 576 0 0 0, .subi 576 0 0 0, .andi 576 0 0 0,
   .ori 576 0 0 0, .xori 576 0 0 0, .shli 576 0 0 0, .shri 576 0 0 0, .srai 576 0 0 0, .muli 576 0 0 0, .mini 576 0 0 0, .maxi 576 0 0 0,
   .li 576 0 0, .lih 576 0 0 0, .lcSet 576 0 0, .lcAdd 576 0 0, .lcMov 576 0 0, .movC 576 0 0, .cmp 576 0 0 0 0, .cmpi 576 0 0 0 0,
   .kop 576 0 0 0 0, .br 576 0, .brK 576 0 false 0, .brC 576 0 0, .semInc 576 0 0, .semSet 576 0 0, .semW 576 0 false 0, .waitT 576 0,
   .timeRd 576 0, .mark 576 0 0, .dmai 576 0 0, .scaleDn 576 0 0 0, .flagK 576 0, .flagClr 576, .endOp 576, .coreComplete 576,
   .ldB 576 0 0 0, .ldH 576 0 0 0, .ldW 576 0 0 0, .ldD 576 0 0 0, .stB 576 0 0 0, .stH 576 0 0 0, .stW 576 0 0 0, .stD 576 0 0 0,
   .faddD 576 0 0 0, .fsubD 576 0 0 0, .fmulD 576 0 0 0, .fmaD 576 0 0 0 0] : List Instr).all fun i => !i.wf) = true := by decide +kernel

theorem test_wf_refuses_2 : (([
   .fdivD 576 0 0 0, .fsqrtD 576 0 0, .fcmpD 576 0 0 0 0, .cvtDL 576 0 0, .cvtLD 576 0 0, .cvtDF 576 0 0, .cvtFD 576 0 0, .brI 576 0,
   .call 576 0, .ret 576, .tcfg 576 0 0 false, .tcfgRelease 576 0, .lds 576 0 0 0 0 0, .ldsT 576 0 0 0 0 0, .swap 576, .mma 576 0 0 0 0,
   .mmaT 576 0 0 0 0, .mwait 576 0 false 0, .passStart 576, .passCommit 576, .vopAdd 576 0 0 0 0, .vopSub 576 0 0 0 0, .vopMul 576 0 0 0 0,
   .vopFma 576 0 0 0 0, .vopMax 576 0 0 0 0, .vopMin 576 0 0 0 0, .vopAbs 576 0 0 0 0, .vopNeg 576 0 0 0 0, .vopExp 576 0 0 0 0,
   .vopLog 576 0 0 0 0, .vopRecip 576 0 0 0 0, .vopRsqrt 576 0 0 0 0, .vopTanh 576 0 0 0 0, .vopMov 576 0 0 0 0, .vredSum 576 0 0 0 0 0,
   .vredMax 576 0 0 0 0 0, .vredSsq 576 0 0 0 0 0, .vredDot 576 0 0 0 0 0, .vredSSum 576 0 0 0 0, .vredSMax 576 0 0 0 0,
   .vredSSsq 576 0 0 0 0, .vredSDot 576 0 0 0 0, .cvt 576 0 0 0 0 false, .rng 576 0 0 0, .updc 576 0 0 0 0, .vsig 576 0 0,
   .vwait 576 0 false 0, .tld 576 0 0, .tst 576 0 0, .ard 576 0 0 0 0 0, .resultLand 576, .semaphoreUpdate 576, .waiterWake 576 0,
   .waiterWake 0 4, .waitTResume 576, .descriptorStart 576, .runAheadTouch 576 0, .sliceRequest 576 0 0, .sliceRequest 0 1024 0,
   .sliceRequest 0 0 3] : List Instr).all fun i => !i.wf) = true := by decide +kernel

theorem test_wf_refuses_3 : (([
   .requestFailed 576 0, .requestFailed 0 1024, .writeAck 576 0, .writeAck 0 1024, .itemComplete 576 0, .itemDeadline 576 0,
   .creditGrant 576, .arrivalLand 576, .moveStart 4, .patrolScrub false 192 0 0, .patrolScrub false 0 (2 ^ 64) 0, .patrolScrub false 0 0 3,
   .heartStackFailure 12, .jobLoad badHdr load, .jobLoad hdr badLoad, .jobStart badHdr, .jobPreempt badHdr, .stopRequest 576,
   .coreSaveDone 576, .jobResume badHdr, .jobUnload badHdr, .jobReset badHdr, .cellReplace badHdr 0, .cellReplace hdr (2 ^ 16),
   .mcastSet badHdr 0 0 0, .mcastSet hdr 256 0 0, .mcastSet hdr 0 (2 ^ 16) 0, .mcastSet hdr 0 0 (2 ^ 64), .objMap badHdr map,
   .objMap hdr badMap, .objUnmap badHdr 0, .objUnmap hdr (2 ^ 16), .placeRise badHdr 0 0 0, .placeRise hdr (2 ^ 16) 0 0,
   .placeRise hdr 0 (2 ^ 32) 0, .placeRise hdr 0 0 (2 ^ 32), .placeSink badHdr 0 0 0, .placeSink hdr (2 ^ 16) 0 0,
   .placeSink hdr 0 (2 ^ 32) 0, .placeSink hdr 0 0 (2 ^ 32), .pin badHdr 0, .pin hdr (2 ^ 16), .unpin badHdr 0, .unpin hdr (2 ^ 16),
   .winSet badHdr 0 0, .winSet hdr 256 0, .winSet hdr 0 (2 ^ 64), .winStart badHdr 0, .winStart hdr 256, .winStop badHdr 0,
   .winStop hdr 256, .windowCursorAdvance 8 0 false, .windowCursorAdvance 0 32 false, .windowLateRecord 8 0 0, .windowLateRecord 0 32 0,
   .windowRestart 8 0, .windowRestart 0 32, .snapshot badHdr src, .snapshot hdr badSrc, .drainCheck 8] : List Instr).all fun i => !i.wf) = true := by decide +kernel

theorem test_wf_refuses_4 : (([
   .epochAdvance 8, .stopEnd 8, .stopBound 8, .imageTaken 8 false false false, .buddyImageReceive 256 0 0 0 false false [],
   .buddyImageReceive 0 256 0 0 false false [], .buddyImageReceive 0 0 256 0 false false [],
   .buddyImageReceive 0 0 0 (2 ^ 16) false false [], .nvmeCompletion 8 false, .nvmeTimeout 8, .restore badHdr src, .restore hdr badSrc,
   .restoreImage 8 false [], .adopt badHdr src 0 0 0, .adopt hdr badSrc 0 0 0, .adopt hdr src 256 0 0, .adopt hdr src 0 256 0,
   .adopt hdr src 0 0 256, .boundedLoss badHdr 0, .boundedLoss hdr (2 ^ 16), .collRun badHdr 0, .collRun hdr (2 ^ 64),
   .collData 64 0 0 0 [], .collData 0 (2 ^ 32) 0 0 [], .collData 0 0 3 0 [], .collData 0 0 0 256 [], .collCtrl 64 0, .collCtrl 0 (2 ^ 32),
   .globalNormPoll 64 0, .globalNormPoll 0 (2 ^ 32), .collComplete 64 0, .collComplete 0 (2 ^ 32), .fabricConfig badHdr 0,
   .fabricConfig hdr (2 ^ 64), .linkEnable badHdr 0, .linkEnable hdr 256, .linkDisable badHdr 0, .linkDisable hdr 256, .linkDisableStop 36,
   .setLinkShares badHdr 0 0, .setLinkShares hdr 256 0, .setLinkShares hdr 0 256, .setFlueShares badHdr 0 0 0 0 0 0,
   .setFlueShares hdr 256 0 0 0 0 0, .setFlueShares hdr 0 256 0 0 0 0, .setFlueShares hdr 0 0 256 0 0 0, .setFlueShares hdr 0 0 0 256 0 0,
   .setFlueShares hdr 0 0 0 0 256 0, .setFlueShares hdr 0 0 0 0 0 256, .releaseCancel badHdr 0 0, .releaseCancel hdr 256 0,
   .releaseCancel hdr 0 (2 ^ 32), .traceConfig badHdr 0 0 0 0, .traceConfig hdr 256 0 0 0, .traceConfig hdr 0 256 0 0,
   .traceConfig hdr 0 0 256 0, .traceConfig hdr 0 0 0 (2 ^ 32), .traceTrigger badHdr 0, .traceTrigger hdr 256, .counterSelect badHdr 0 0 0] : List Instr).all fun i => !i.wf) = true := by decide +kernel

theorem test_wf_refuses_5 : (([
   .counterSelect hdr (2 ^ 16) 0 0, .counterSelect hdr 0 256 0, .counterSelect hdr 0 0 (2 ^ 16), .captureSet badHdr 0 0 0,
   .captureSet hdr 256 0 0, .captureSet hdr 0 256 0, .captureSet hdr 0 0 (2 ^ 64), .captureClear badHdr 0, .captureClear hdr 256,
   .captureStart 8 0 0, .captureStart 0 64 0, .captureStart 0 0 2, .captureComplete 8 0, .captureComplete 0 64,
   .ashClear badHdr (zeros 128), .ashClear hdr (zeros 129), .ringCreate badHdr 0 0 0 0 0, .ringCreate hdr 256 0 0 0 0,
   .ringCreate hdr 0 256 0 0 0, .ringCreate hdr 0 0 256 0 0, .ringCreate hdr 0 0 0 (2 ^ 64) 0, .ringCreate hdr 0 0 0 0 (2 ^ 64),
   .ringDelete badHdr 0, .ringDelete hdr 256, .fwStageHeader badHdr 0 0 0 [], .fwStageHeader hdr (2 ^ 32) 0 0 [],
   .fwStageHeader hdr 0 (2 ^ 32) 0 [], .fwStageHeader hdr 0 0 (2 ^ 64) [], .fwStageBody badHdr 0 0 0 [], .fwStageBody hdr (2 ^ 32) 0 0 [],
   .fwStageBody hdr 0 (2 ^ 32) 0 [], .fwStageBody hdr 0 0 (2 ^ 64) [], .fwStageFinish badHdr, .fwConfirm badHdr,
   .fenceClear badHdr 0 (zeros 128), .fenceClear hdr (2 ^ 16) (zeros 128), .fenceClear hdr 0 (zeros 129), .deviceReset badHdr 0,
   .deviceReset hdr 256, .powerLimit badHdr 0, .powerLimit hdr (2 ^ 16), .placeQuery badHdr 0 0 0 0, .placeQuery hdr (2 ^ 16) 0 0 0,
   .placeQuery hdr 0 (2 ^ 32) 0 0, .placeQuery hdr 0 0 (2 ^ 32) 0, .placeQuery hdr 0 0 0 (2 ^ 64), .jobQuery badHdr 0,
   .jobQuery hdr (2 ^ 64), .timeQuery badHdr, .regRead badHdr 0 0 0, .regRead hdr (2 ^ 64) 0 0, .regRead hdr 0 256 0,
   .regRead hdr 0 0 (2 ^ 64), .snapQuery badHdr 0, .snapQuery hdr (2 ^ 64), .ringQuery badHdr 0, .ringQuery hdr 256,
   .mgmtDatagram (2 ^ 32) 0 [], .mgmtDatagram 0 (2 ^ 16) [], .mgmtDatagram 0 0 (zeros 4105)] : List Instr).all fun i => !i.wf) = true := by decide +kernel

theorem test_wf_refuses_6 : (([
   .controlMsg 256 0 0 0 [], .controlMsg 0 256 0 0 [], .controlMsg 0 0 256 0 [], .controlMsg 0 0 0 (2 ^ 16) [],
   .controlMsg 0 0 0 0 (zeros 4097), .arpRequest (2 ^ 32), .icmpEcho (2 ^ 32) [], .ptpMessage (2 ^ 64), .flitReceive 36 (zeros 256) false,
   .flitReceive 0 (zeros 257) false, .nak 36 0, .nak 0 4096, .linkSilence 36, .retrainDone 36, .retrainTimeout 36, .detectSignal 36,
   .detectTimeout 36, .trainDone 36, .trainTimeout 36, .negotiateDone 36 0 0 0 0 0 0, .negotiateDone 0 256 0 0 0 0 0,
   .negotiateDone 0 0 256 0 0 0 0, .negotiateDone 0 0 0 256 0 0 0, .negotiateDone 0 0 0 0 36 0 0, .negotiateDone 0 0 0 0 0 8 0,
   .negotiateDone 0 0 0 0 0 0 (2 ^ 64), .write 256 0 0 0 0 [] 0 0 0, .write 0 256 0 0 0 [] 0 0 0, .write 0 0 256 0 0 [] 0 0 0,
   .write 0 0 0 (2 ^ 64) 0 [] 0 0 0, .write 0 0 0 0 (2 ^ 16) [] 0 0 0, .write 0 0 0 0 0 (zeros 257) 0 0 0, .write 0 0 0 0 0 [] 0 0 64,
   .undeliverable 256 0 0, .undeliverable 0 256 0, .undeliverable 0 0 256, .writeAckTimeout 256 0 0, .writeAckTimeout 0 256 0,
   .writeAckTimeout 0 0 256, .timeSym 36 0 0 0 0 0, .timeSym 0 (2 ^ 64) 0 0 0 0, .timeSym 0 0 (2 ^ 32) 0 0 0, .timeSym 0 0 0 (2 ^ 32) 0 0, .timeSym 0 0 0 0 256 0,
   .timeSym 0 0 0 0 0 (2 ^ 16), .timeSymSend 36, .coreFault 576 0 0, .coreFault 0 256 0, .coreFault 0 0 (2 ^ 32),
   .routerFault 576, .moverFault 4, .engineFault 4 0, .engineFault 0 8, .wardenHeartbeat 20, .wardenFault 20 0, .wardenFault 0 256,
   .deviceFatal 256 0 0, .deviceFatal 0 (2 ^ 32) 0, .deviceFatal 0 0 (2 ^ 32), .traceRecordWrite 0 576] : List Instr).all fun i => !i.wf) = true := by decide +kernel

theorem test_wf_refuses_7 : (([
   .traceRecordWrite 6 0, .evtRfRead 576, .devRfRead 4, .registerWrite (2 ^ 64) 0 0, .registerWrite 0 9 0, .registerWrite 0 0 (2 ^ 64),
   .hostAccess false (2 ^ 64) 0 [] 0, .hostAccess false 0 9 [] 0, .hostAccess false 0 0 [] 3, .pcieInbound false false (2 ^ 64) 0 [] 0,
   .pcieInbound false false 0 0 [] 3, .setdasa 128 0, .setdasa 0 128, .entdaa 128, .brownOut 11, .overvoltage 11,
   .kindlingStart badBootEnv, .header (2 ^ 32) 0 0 (zeros 512), .header 0 (2 ^ 16) 0 (zeros 512), .header 0 0 (2 ^ 32) (zeros 512),
   .header 0 0 0 (zeros 513), .body (2 ^ 32) 0 0 0 [], .body 0 (2 ^ 16) 0 0 [], .body 0 0 (2 ^ 32) 0 [], .body 0 0 0 (2 ^ 32) [],
   .body 0 0 0 0 (zeros 1025), .finish (2 ^ 32) 0 0 bootEnv, .finish 0 (2 ^ 16) 0 bootEnv, .finish 0 0 (2 ^ 32) bootEnv,
   .finish 0 0 0 badBootEnv, .settings (2 ^ 32) 0 0 (zeros 256), .settings 0 (2 ^ 16) 0 (zeros 256), .settings 0 0 (2 ^ 32) (zeros 256),
   .settings 0 0 0 (zeros 257), .boot (2 ^ 32) 0 0 bootEnv, .boot 0 (2 ^ 16) 0 bootEnv, .boot 0 0 (2 ^ 32) bootEnv, .boot 0 0 0 badBootEnv,
   .recoveryTimeout badBootEnv, .sensorSample (List.replicate 73 0), .thermalStep 4 false, .supplyDip 11 0, .supplyDip 0 (2 ^ 16),
   .dipDecay 4, .cellRestoreComplete 8 0, .cellRestoreComplete 0 4096, .railReturnAboveWarning 11] : List Instr).all fun i => !i.wf) = true := by decide +kernel

/-! States that meet the hypotheses of the statements: cores. -/

/-- A core in a program: an ordinary or a lead core of a job, nothing on its way. -/
def cpu0 (lead : Bool) : Cpu := { Cpu.reset lead with st := .running }
def core0 (u : Cpu) : Core := { Core.fresh 2 u.lead 0 with cpu := u, job := some 0 }
/-- A job of one cell that runs on the core of LCN 0. -/
def cell0 : Cell := ⟨0, false, true, false, false, 0, false, Save.empty⟩
def job0 : Job := { Job.empty with state := 4, gx := 1, gy := 1, cells := [cell0] }
/-- A device that serves commands, with one core and one job. -/
def dev (c : Core) : State :=
  { State.reset with
    cores := [c], jobs := job0 :: List.replicate 7 Job.empty, fw := { Fw.reset 0 with stage := 4 }
    memReg := { MemReg.reset with hostGib := 4, mapValid := true, tieredMib := 1024 }, links := [Link.reset true], time := { TimeSt.reset with state := 2 } }
def run (u : Cpu) : State := dev (core0 u)

theorem issuing_run (u : Cpu) (h : u.issues = true) : Issuing (run u) 0 (core0 u) := ⟨rfl, rfl, h⟩

theorem quiet_cpu0 (b : Bool) : (cpu0 b).Quiet := ⟨rfl, rfl, rfl, rfl, rfl, rfl⟩

/-- A core issues with nothing on its way: what every statement about one instruction asks. -/
theorem witness_quiet_issue : Issuing (run (cpu0 false)) 0 (core0 (cpu0 false)) ∧ (cpu0 false).Quiet := ⟨issuing_run _ (by decide), quiet_cpu0 _⟩

theorem witness_quiet_issue_lead : Issuing (run (cpu0 true)) 0 (core0 (cpu0 true)) ∧ (cpu0 true).Quiet ∧ (cpu0 true).lead = true :=
  ⟨issuing_run _ (by decide), quiet_cpu0 _, rfl⟩

def cpuBusy : Cpu := { cpu0 false with pend := [⟨3, .sreg 9 5⟩] }

theorem witness_ScalarResultAmongOthersInFlight : Issuing (run cpuBusy) 0 (core0 cpuBusy) ∧ cpuBusy.sregs.length = 32 ∧
    ∀ q ∈ cpuBusy.pend, ∀ r v, q.act = .sreg r v → r ≠ 1 ∧ r ≠ 2 ∧ r ≠ 3 := by
  refine ⟨issuing_run _ (by decide), rfl, ?_⟩
  intro q hq r v h
  simp [cpuBusy] at hq
  subst hq
  cases h
  decide

/-- BranchInstructions: a lead core with a return address, an ordinary core, a core with no branch pending. -/
theorem witness_BranchInstructions : (let u := { cpu0 true with rets := [16383] }
    Issuing (run u) 0 (core0 u) ∧ u.Quiet ∧ u.lead = true ∧ u.rets = 16383 :: []) ∧ (cpu0 false).lead = false ∧ (cpu0 false).brs = [] :=
  ⟨⟨issuing_run _ (by decide), ⟨rfl, rfl, rfl, rfl, rfl, rfl⟩, rfl, rfl⟩, rfl, rfl⟩

/-- SemaphoreUpdates: counted mode, banked mode with a far owner, and an update on its way, at the highest semaphore. -/
def cpuBanked : Cpu := { cpu0 false with banked := true, owners := List.replicate 48 4 }
def cpuNear : Cpu := { cpu0 false with banked := true, owners := List.replicate 48 engSeq }
def cpuUpd : Cpu := { cpu0 false with sups := [⟨4, 47, true, 65535, 3⟩] }

theorem witness_SemaphoreUpdates : (47#6).toNat < 48 ∧ (cpu0 false).banked = false ∧
    (Issuing (run cpuBanked) 0 (core0 cpuBanked) ∧ cpuBanked.Quiet ∧ 1 < Cpu.engDistTo cpuBanked engSeq 47) ∧
    (Issuing (run cpuNear) 0 (core0 cpuNear) ∧ cpuNear.Quiet ∧ cpuNear.banked = true ∧ Cpu.engDistTo cpuNear engSeq 47 = 1) ∧
    (run cpuUpd).core? 0 = some (core0 cpuUpd) ∧ cpuUpd.st ≠ .fenced ∧ cpuUpd.evals = [] ∧ cpuUpd.pend = [] ∧ cpuUpd.moves = [] ∧ cpuUpd.array.q = [] ∧
    cpuUpd.array.run = [] ∧ cpuUpd.sups = [⟨4, (47#6).toNat, true, (65535#16).toNat, 3⟩] :=
  ⟨by decide, rfl, ⟨issuing_run _ (by decide), ⟨rfl, rfl, rfl, rfl, rfl, rfl⟩, by decide⟩,
    ⟨issuing_run _ (by decide), ⟨rfl, rfl, rfl, rfl, rfl, rfl⟩, rfl, by decide⟩, rfl, by decide, rfl, rfl, rfl, rfl, rfl, by decide⟩

theorem witness_WaitRegistration : Issuing (run (cpu0 false)) 0 (core0 (cpu0 false)) ∧ (cpu0 false).Quiet ∧ (47#6).toNat < 48 ∧
    ∀ w ∈ (cpu0 false).waits, w.eng ≠ engArr ∧ (w.sem = 47 → w.wakeAt = none → (cpu0 false).sem 47 < w.target) :=
  ⟨issuing_run _ (by decide), quiet_cpu0 _, by decide, by simp [cpu0, Cpu.reset]⟩

/-- WaitersWake: a count of 65535 that meets its target at the end of a cycle; satisfied waits of the sequencer, the array and the fetch/store engine. -/
def waits (e : Nat) (x : Option Nat) : List WaitRec := [⟨0, e, 47, 65535, true, x⟩]
def cpuMeets (e : Nat) : Cpu := { cpu0 false with waits := waits e none, sems := (List.replicate 48 0).set 47 65535, evals := [(47, 0)] }
def cpuWoken (e : Nat) : Cpu := { cpu0 false with waits := waits e (some 6) }
def cpuArrWait : Cpu := { cpuWoken engArr with array := { ArrayState.empty with q := [.wait 47 65535 true] } }
def item0 : Item :=
  { uid := 5, raw := List.replicate 64 0, deadline := none, phase := .queued, members := [], todo := [], total := 0, land := 0, base := 0, failAt := none,
    cut := none, timedOut := false, ownerLost := false }
def coreFsdWait : Core := { core0 (cpuWoken engFsd) with dma := { Dma.reset with q := [item0] } }

theorem witness_WaitersWake :
    (∀ e ∈ [engArr, engVec, engSeq, engFsd], Issuing (run (cpuMeets e)) 0 (core0 (cpuMeets e)) → (run (cpuMeets e)).core? 0 = some (core0 (cpuMeets e)) ∧
      (cpuMeets e).st ≠ .fenced ∧ (cpuMeets e).pend = [] ∧ (cpuMeets e).moves = [] ∧ (cpuMeets e).sups = [] ∧ (cpuMeets e).array.run = [] ∧
      (cpuMeets e).array.q = [] ∧ (cpuMeets e).evals = [(47, 0)] ∧ (cpuMeets e).waits = [⟨0, e, 47, 65535, true, none⟩] ∧ 65535 ≤ (cpuMeets e).sem 47) ∧
    Issuing (run (cpuMeets engArr)) 0 (core0 (cpuMeets engArr)) ∧ Issuing (run (cpuMeets engFsd)) 0 (core0 (cpuMeets engFsd)) ∧
    (∀ e ∈ [engSeq, engVec], (cpuWoken e).evals = [] ∧ (cpuWoken e).array.q = [] ∧ (cpuWoken e).waits = [⟨0, e, 47, 65535, true, some 6⟩]) ∧
    (cpuArrWait.waits = [⟨0, engArr, 47, 65535, true, some 6⟩] ∧ cpuArrWait.array.q = .wait 47 65535 true :: [] ∧ cpuArrWait.sups = []) ∧
    coreFsdWait.dma.q = item0 :: [] ∧ item0.phase = .queued ∧ coreFsdWait.cpu.waits = [⟨0, engFsd, 47, 65535, true, some 6⟩] := by
  refine ⟨?_, issuing_run _ (by decide), issuing_run _ (by decide), fun _ _ => ⟨rfl, rfl, rfl⟩, ⟨rfl, rfl, rfl⟩, rfl, rfl, rfl⟩
  intro e _ h
  exact ⟨h.1, by show CoreSt.running ≠ .fenced; decide, rfl, rfl, rfl, rfl, rfl, rfl, rfl, by show 65535 ≤ 65535; decide⟩

def cpuTime (past : Bool) : Cpu := { cpu0 false with seqTime := some (0, 0, past) }
theorem witness_CoreTime : ∀ past, (run (cpuTime past)).core? 0 = some (core0 (cpuTime past)) ∧ (cpuTime past).st ≠ .fenced ∧ (cpuTime past).Quiet ∧
    (cpuTime past).seqTime = some (0, 0, past) ∧ 0 ≤ (run (cpuTime past)).now :=
  fun _ => ⟨rfl, by show CoreSt.running ≠ .fenced; decide, ⟨rfl, rfl, rfl, rfl, rfl, rfl⟩, rfl, Nat.zero_le _⟩

/-- MarkDmaiAndEnd: a full trace queue but one, a running trace buffer, a queue with room and one without, and a program that has ended. -/
def coreMark : Core := { core0 (cpu0 false) with obs := { CoreObs.reset with queue := List.replicate 15 [] } }
def devMark : State := { dev coreMark with trcs := { Trc.reset with state := 1 } :: List.replicate 5 Trc.reset }
def coreFull : Core := { core0 (cpu0 false) with dma := { Dma.reset with q := List.replicate 64 item0 } }
def coreEnded : Core := core0 { cpu0 false with ended := true }

theorem witness_MarkDmaiAndEnd :
    (Issuing devMark 0 coreMark ∧ coreMark.cpu.Quiet ∧ coreMark.job = some 0 ∧ (devMark.job 0).caps = [] ∧ (0xFFEF#16).toNat < 0xFFF0 ∧
      coreMark.obs.queue.length < 16 ∧ (devMark.trcs.getD (dieOf coreMark.phys) Trc.reset).state ≠ 0) ∧
    (core0 (cpu0 false)).dma.q.length < 64 ∧ (Issuing (dev coreFull) 0 coreFull ∧ coreFull.cpu.Quiet ∧ 64 ≤ coreFull.dma.q.length) ∧
    (dev coreEnded).core? 0 = some coreEnded ∧ coreEnded.cpu.st = .running ∧ coreEnded.cpu.ended = true ∧ coreEnded.cpu.held = 0 ∧ coreEnded.dma.q = [] ∧
    coreEnded.withheld = false ∧ coreEnded.job = some 0 ∧ 0 < (dev coreEnded).jobs.length ∧ ((dev coreEnded).job 0).state = 4 :=
  ⟨⟨⟨rfl, rfl, by decide⟩, ⟨rfl, rfl, rfl, rfl, rfl, rfl⟩, rfl, rfl, by decide, by decide, by decide⟩, by decide,
    ⟨⟨rfl, rfl, by decide⟩, ⟨rfl, rfl, rfl, rfl, rfl, rfl⟩, by decide⟩, rfl, rfl, rfl, rfl, rfl, rfl, rfl, by decide, rfl⟩

/-- TileConfiguration: the word 0 names a tile of one row and one column of FP32 at row 0, which does not fault. -/
theorem witness_TileConfiguration : tcfgFaults (cpu0 false).tiles 15 ⟨0, 1, 0, 1, 0, 0, false⟩ = false := by decide

/-- PreciseFault: each faulting operand at the first value that faults, and TCFG of a word whose tile passes the end of the file. -/
def cpuBadTile : Cpu := { cpu0 false with sregs := (List.replicate 32 0).set 1 (0x3FF + 255 * 2 ^ 10 + 255 * 2 ^ 22) }
theorem witness_PreciseFault : Issuing (run cpuBadTile) 0 (core0 cpuBadTile) ∧ cpuBadTile.Quiet ∧ (core0 cpuBadTile).job = some 0 ∧
    ((run cpuBadTile).job 0).state = 4 ∧ tcfgFaults cpuBadTile.tiles 0 (cfgOfWord (cpuBadTile.sreg 1).toNat false) = true ∧ 48 ≤ (48#6).toNat ∧
    14 ≤ (14#4).toNat ∧ 80 ≤ (80#7).toNat ∧ ((run cpuBadTile).job 0).policy = 0 :=
  ⟨issuing_run _ (by decide), ⟨rfl, rfl, rfl, rfl, rfl, rfl⟩, rfl, rfl, by decide, by decide, by decide, by decide, by decide⟩

/-- ArrayIssue: an idle array, a pass that streams, three sets held, four sets held. -/
def entry0 : Entry :=
  { uid := 0, issued := 0, m := 1, n := 1, k := 1, dest := 0, acc := false, stats := [], statT := false, addr := 0, pitch := 1, fmt := 1, block := 0,
    feedT := false, sem := 63, arr := 0, next := 0, restart := false, direct := false, saw := [] }
def pass0 (last : Bool) : PassRun := ⟨entry0, 0, 0, 41, false, last, false, Block.empty, [], 0⟩
def cpuStreams : Cpu := { cpu0 false with array := { ArrayState.empty with run := [pass0 true], streamEnd := 1 } }
def cpuHeld3 : Cpu := { cpu0 false with array := { ArrayState.empty with run := List.replicate 3 (pass0 true) } }
def cpuHeld4 : Cpu := { cpu0 false with array := { ArrayState.empty with q := List.replicate 4 (.entry entry0) } }

theorem witness_ArrayIssue : ((cpu0 false).Quiet ∧ (cpu0 false).array.run = [] ∧ (cpu0 false).array.wave = none) ∧
    (Issuing (run cpuStreams) 0 (core0 cpuStreams) ∧ cpuStreams.pend = [] ∧ cpuStreams.moves = [] ∧ cpuStreams.sups = [] ∧ cpuStreams.evals = [] ∧
      cpuStreams.array.q = [] ∧ cpuStreams.array.run ≠ [] ∧ cpuStreams.cycle < cpuStreams.array.streamEnd) ∧
    (Issuing (run cpuHeld3) 0 (core0 cpuHeld3) ∧ cpuHeld3.array.q = [] ∧ cpuHeld3.held < 4 ∧ (47#6).toNat < 48) ∧
    Issuing (run cpuHeld4) 0 (core0 cpuHeld4) ∧ cpuHeld4.pend = [] ∧ cpuHeld4.moves = [] ∧ cpuHeld4.sups = [] ∧ cpuHeld4.evals = [] ∧
    (∀ i ∈ cpuHeld4.array.q, ∃ e, i = QItem.entry e) ∧ 4 ≤ cpuHeld4.held := by
  refine ⟨⟨quiet_cpu0 _, rfl, rfl⟩, ⟨issuing_run _ (by decide), rfl, rfl, rfl, rfl, rfl, by decide, by decide⟩,
    ⟨issuing_run _ (by decide), rfl, by decide, by decide⟩, issuing_run _ (by decide), rfl, rfl, rfl, rfl, ?_, by decide⟩
  intro i h
  exact ⟨entry0, by simpa [cpuHeld4] using h⟩

/-- PassesOfTheArray: an entry at the head of the queue, a pass that runs, and one that starved with another behind it. -/
def cpuEntry : Cpu := { cpu0 false with array := { ArrayState.empty with q := [.entry entry0] } }
def pass1 : PassRun := { pass0 true with commitAt := 100 }
def cpuPass : Cpu := { cpu0 false with array := { ArrayState.empty with run := [pass1] } }
def cpuLate : Cpu := { cpu0 false with cycle := 50, array := { ArrayState.empty with run := [pass0 false, pass1] } }
theorem witness_PassesOfTheArray : ((run cpuEntry).core? 0 = some (core0 cpuEntry) ∧ cpuEntry.st = .running ∧ cpuEntry.pend = [] ∧ cpuEntry.moves = [] ∧
      cpuEntry.sups = [] ∧ cpuEntry.waits = [] ∧ cpuEntry.evals = [] ∧ cpuEntry.array.q = [.entry entry0] ∧ entry0.direct = false) ∧
    ((run cpuPass).core? 0 = some (core0 cpuPass) ∧ cpuPass.st = .running ∧ cpuPass.waits = [] ∧ cpuPass.array.run = [pass1] ∧ cpuPass.array.q = [] ∧
      pass1.bad = false ∧ wrappedTiles pass1.entry = [] ∧ pass1.entry.saw = [] ∧ cpuPass.cycle ≤ pass1.commitAt ∧
      pass1.start + passCycles pass1.entry pass1.idx ≤ pass1.commitAt ∧
      pass1.rows = ((List.range (passRows pass1.entry pass1.idx)).map (streamRow cpuPass.scratch pass1.entry pass1.idx)).take pass1.rows.length) ∧
    cpuLate.array.run = [pass0 false, pass1] ∧ (pass0 false).commitAt ≤ cpuLate.cycle := by
  decide +kernel

/-- ElementwiseResults, ReductionResults, ConversionRandomAndUpdate: FP32 tiles of two rows, BF16 tiles of one row of 64 columns. -/
def tileF32 (base : Nat) : Option TileCfg := some ⟨base, 2, 0, 32, 0, 0, false⟩
def tileBf16 (base : Nat) : Option TileCfg := some ⟨base, 1, 1, 64, 0, 0, false⟩
def cpuTiles : Cpu := { cpu0 false with tiles := [tileF32 0, tileF32 2, tileF32 4, tileBf16 6, tileBf16 7] ++ List.replicate 11 none }
theorem witness_ElementwiseResults : Issuing (run cpuTiles) 0 (core0 cpuTiles) ∧ cpuTiles.Quiet ∧ (cpuTiles.tile 0).fmt = 0 ∧ (cpuTiles.tile 1).fmt = 0 ∧
    (cpuTiles.tile 2).fmt = 0 ∧ fmtScaled (cpuTiles.tile 2).fmt = false ∧ 64 ≤ (cpuTiles.tile 2).rows * (cpuTiles.tile 2).cols :=
  ⟨issuing_run _ (by decide), ⟨rfl, rfl, rfl, rfl, rfl, rfl⟩, rfl, rfl, rfl, rfl, by decide⟩
theorem witness_ConversionRandomAndUpdate : (cpuTiles.tile 3).fmt = 1 ∧ (cpuTiles.tile 4).fmt = 1 ∧ 64 ≤ (cpuTiles.tile 3).rows * (cpuTiles.tile 3).cols ∧
    64 ≤ (cpuTiles.tile 4).rows * (cpuTiles.tile 4).cols ∧ fmtScaled (cpuTiles.tile 3).fmt = false := by decide

/-- ResultsLand: one result in flight of each kind. -/
def acts : List Act :=
  [.sreg 31 1, .lc 15 1, .kreg 7 true, .ovf true, .tile [⟨0, 32, 1⟩], .acc [⟨0, 32, 1⟩], .scr [⟨0, 8, 1⟩], .row [⟨0, 32, 1⟩] none,
   .lead 65535 [1], .shadow Block.empty, .readTld 255 2097088 32, .readTst 0 0 32, .readArd 0 0 true]
theorem witness_ResultsLand : ∀ a ∈ acts, let u := { cpu0 false with pend := [⟨3, a⟩] }
    (run u).core? 0 = some (core0 u) ∧ u.st ≠ .fenced ∧ u.moves = [] ∧ u.sups = [] ∧ u.evals = [] ∧ u.array.q = [] ∧ u.array.run = [] ∧
      u.array.shadowFree ≤ 3 ∧ u.dmaWas = [] ∧ u.pend = [⟨3, a⟩] :=
  fun _ _ => ⟨rfl, by show CoreSt.running ≠ .fenced; decide, rfl, rfl, rfl, rfl, rfl, Nat.zero_le _, rfl, rfl⟩

/-- BundleIssueRunsTheEncoding: the word of ADD S1, S2, S3 in the control slot of the bundle at program address 0 (R101, R102, R110). -/
def cpuProg : Cpu := { cpu0 false with prog := (Memory.writeLE [] 0 16 (0x01088600 * 2 ^ 96)) }
theorem witness_BundleIssueRunsTheEncoding : slotWord (.add 0 1 2 3) = some (0, 3, 0x01088600) ∧ (run cpuProg).core? 0 = some (core0 cpuProg) ∧
    cpuProg.prog.readLE (16 * cpuProg.pc) 16 = 0x01088600 * 2 ^ (32 * 3) := by decide +kernel

theorem witness_StepRunsTheFrontCommand : ({ State.reset with pending := [.powerSample 900] } : State).pending = .powerSample 900 :: [] ∧
    State.reset.pending = [] := ⟨rfl, rfl⟩

/-! States that meet the hypotheses of the statements: the board's side, boot, the host's side. -/

def pw (p : Power) : State := { State.reset with power := p }
def p0 : Power := Power.reset 1500

theorem witness_DeviceResets : State.reset.pins.resetN = true ∧ (10 : Nat) < 11 ∧ ({ Fw.reset 0 with startDog := some 5 } : Fw).startDog = some 5 :=
  ⟨rfl, by decide, rfl⟩

/-- PowerSamplesAndLoop: a mean one above the limit at levels 14 and 15, after 98 and 99 runs; the mean at the limit, at 97 %, and below it. -/
def mean (l : List Nat) : Nat := l.sum / l.length
theorem witness_PowerSamplesAndLoop :
    (let p := { p0 with samples := [1501], level := 14 }; p.limit < mean p.samples ∧ p.level < 15) ∧
    (let p := { p0 with samples := [1501], level := 15, runsOver := 98 }; p.limit < mean p.samples ∧ 15 ≤ p.level ∧ p.runsOver < 99) ∧
    (let p := { p0 with samples := [1501], level := 15, runsOver := 99 }; p.limit < mean p.samples ∧ 15 ≤ p.level ∧ p.runsOver = 99 ∧ p.unmet = false) ∧
    (let p := { p0 with samples := [1500] }; mean p.samples ≤ p.limit ∧ 97 * p.limit ≤ 100 * mean p.samples) ∧
    (let p := { p0 with samples := [1455] }; mean p.samples ≤ p.limit ∧ 97 * p.limit ≤ 100 * mean p.samples) ∧
    (let p := { p0 with samples := [1454] }; 100 * mean p.samples < 97 * p.limit) := by decide

/-- SensorsDipsAndLevels: the sensors at the thresholds of R399 and R478, the first and the last rail just above 90 % of its voltage. -/
theorem witness_SensorsDipsAndLevels :
    ((pw p0).power.temps.length = 72) ∧ (List.replicate 72 (759 : Int)).length = 72 ∧ (∀ t ∈ List.replicate 72 (759 : Int), t < 760) ∧
    (let l := List.replicate 71 (759 : Int) ++ [760]; l.length = 72 ∧ l[71]? = some 760 ∧ ∀ i < 71, l[i]? = some 759) ∧
    (let p := { p0 with temps := List.replicate 72 720, thermal := [15, 0, 1, 1] }
     p.temps.length = 72 ∧ p.temps[0]? = some 720 ∧ 0 < p.thermal.getD 0 0 ∧ p.thermal.getD 1 0 = 0) ∧
    (∀ t ∈ List.replicate 72 (704 : Int), t < 705) ∧
    (90 * 750 < 100 * 676 ∧ 100 * 676 < 95 * 750 ∧ 90 * 1100 < 100 * 1044 ∧ 100 * 1044 < 95 * 1100 ∧ p0.warn.testBit 10 = false ∧ p0.dip.length = 4) ∧
    (1024 : Nat).testBit 10 = true ∧ ∀ r < 11, p0.warn.testBit r = false := by decide +kernel

theorem witness_ReferencesAndAlive : ({ State.reset with fw := { Fw.reset 0 with stage := 4 } } : State).fw.stage = 4 ∧ State.reset.fw.stage ≠ 4 ∧
    State.reset.fab.source ≠ 1 ∧ (∀ l ∈ State.reset.links, l.state ≠ 4) ∧ State.reset.Calm ∧ ∀ j < 8, (State.reset.job j).snap.state ≠ 2 := by
  unfold State.Calm; decide +kernel

/-- BootsEndInFirmwareOrRecovery: the device after reset, timed recovery without a client, and a staged image of no bytes. -/
def inRecovery (client : Option (Nat × Nat)) (acks : List (Nat × Nat × Nat × List Byte)) : State :=
  { State.reset with recovery := ⟨1, 2, 1, 0, client, acks⟩, fw := { Fw.reset 0 with stage := 2, session := true }
                     flash := Memory.write [] (flashStaging + 16) [0xFF, 0xFF, 0xFF, 0xFF] }
theorem witness_BootsEndInFirmwareOrRecovery :
    (State.reset.fw.stage = 0 ∧ State.reset.pins.resetN = true ∧ State.reset.pins.refClk = true) ∧
    ((inRecovery none []).recovery.mode = 1 ∧ (inRecovery none []).recovery.client = none) ∧
    (let s := inRecovery (some (1, 2)) [(1, 2, 3, [])]
     s.recovery.client = some (1, 2) ∧ (∀ a ∈ s.recovery.acks, ¬ (a.1 = 1 ∧ a.2.1 = 2 ∧ a.2.2.1 = 4)) ∧ s.fw.session = true ∧
       ceilDiv (fieldAt (s.imageHeader flashStaging) 16 4) 256 ≤ s.fw.pages.length) := by decide +kernel

/-- BootChecks: an empty flash, whose boot state is that of no update, and whose ACTIVE region holds no image. -/
theorem witness_BootChecks : fieldAt State.reset.bootState 11 1 = 0 ∧ State.reset.readyAt flashStaging = false ∧ State.reset.fw.cause ≠ 5 ∧
    fieldAt State.reset.bootState 9 1 < 3 ∧ State.reset.verifyImage flashActive = 1 ∧ { bootEnv with strap := true }.flashOk = true ∧
    ({ State.reset with fw := Fw.reset 5 } : State).fw.cause = 5 := by decide +kernel

/-- RecoveryProtocol: no client and a client; a session with 4,096 bytes staged; a repeated sequence. -/
def staging : State :=
  { inRecovery (some (1, 2)) [] with flash := Memory.write [] (flashStaging + 16) [0xFF, 0xEF, 0xFF, 0xFF] }
theorem witness_RecoveryProtocol :
    (zeros 512).length = 512 ∧ (zeros 256).length = 256 ∧
    (staging.recovery.mode = 1 ∧ staging.recovery.client = some (1, 2) ∧ staging.fw.session = true ∧ staging.stagedLen = 4096 ∧ 3072 % 256 = 0 ∧ zeros 1024 ≠ [] ∧
      (zeros 1024).length ≤ 1024 ∧ 3072 + (zeros 1024).length ≤ staging.stagedLen ∧
      (zeros 1024).length % 256 = 0 ∧ ∀ p ∈ (List.range (((zeros 1024).length + 255) / 256)).map (· + 3072 / 256), p ∉ staging.fw.pages) ∧
    (State.reset.recovery.client = none ∧ State.reset.fw.session = false) ∧
    ((inRecovery (some (1, 2)) []).recovery.client = some (1, 2) ∧ (1, 2) ≠ (1, 3)) ∧
    (inRecovery (some (1, 2)) [(1, 2, 3, [])]).recovery.acks = (1, 2, 3, []) :: [] := by decide +kernel

/-- HostAccesses: the first and last address of the host region, a mapped block, the ends of the register space and of the windows. -/
def blk0 (st : BState) (tier : Nat) : Blk :=
  { idx := 0, state := st, tier, stack := 0, poisoned := false, access := 0, image := none }
/-- A device with blocks, objects and a core. -/
def hosted (bs : List Blk) : State := { dev (core0 (cpu0 false)) with blks := bs }

theorem witness_HostAccesses :
    ((hosted []).memReg.hostGib ≠ 0 ∧ 3 ≤ (hosted []).fw.stage) ∧ (0x2300000 - 8 < 2 ^ 32 ∧ (0x2300000 - 8) % 8 = 0) ∧ (0x200000000 - 1 < 0x200000000) ∧
    (∀ a ∈ [0x080000000000, 0x0800FFFFFFF8], (hosted []).region a = .host ∧ (hosted []).poison.contains (a / 65536) = false ∧ a % 64 + 8 ≤ 64) ∧
    (∀ k ∈ [blk0 .heart 0, blk0 .base 1, blk0 .rising 1, blk0 .sinking 0], let s := hosted [k]
      s.region 0x10000000FFF8 = .tiered 0 ∧ s.blk? 0 = some k ∧ k.state ≠ .unmapped ∧ k.state ≠ .frozen ∧ k.poisoned = false ∧ s.moveOf 0 = none) ∧
    (hosted []).region 0x080100000000 = .bad ∧
    ({ hosted [] with poison := [0x08000000] } : State).region 0x080000000000 = .host ∧
    ({ hosted [] with poison := [0x08000000] } : State).poison.contains (0x080000000000 / 65536) = true := by decide +kernel

theorem witness_PcieInboundAccesses : let s : State := { hosted [] with pcie := ⟨true, 0⟩ }
    s.pcie.up = true ∧ s.region 0x0C0000000000 = .heart ∧ s.region 0x080000000000 = .host ∧ s.poison.contains (0x0C0000000000 / 65536) = false ∧
    0x0C0000000000 % 65536 + 65536 ≤ 65536 ∧ s.region 0x0C0000000000 ≠ .host ∧ s.region 0x180000000000 = .bad := by decide +kernel

theorem witness_SidebandAccesses : State.reset.i3c.dyn = none ∧ (0x4A : Nat) ≠ 0x4B ∧ (zeros 8).length = 8 ∧ 8 < (zeros 9).length := by decide

/-- ManagementPortAndPeers: a POWER_LIMIT datagram of 72 bytes, and packets with the opcodes on either side of those reserved to firmware. -/
def datagram : List Byte :=
  [0x54, 0x53, 1, 0, 9, 0, 0, 0, 1, 8, 1, 0] ++ zeros 60
theorem witness_ManagementPortAndPeers :
    2 ≤ (hosted []).fw.stage ∧ (hosted []).recovery.mode = 0 ∧ (1 : Nat) ≠ (hosted []).mgmtAddress ∧ 72 ≤ datagram.length ∧
    fieldAt datagram 0 4 = 0x00015354 ∧ fieldAt datagram 10 1 = 1 ∧ (hosted []).mgmtSeen = [] ∧ (hosted []).waitq = [] ∧ (hosted []).outs = [] ∧
    ({ hosted [] with mgmtSeen := [(1, 2, 9, [])] } : State).mgmtSeen = [(1, 2, fieldAt datagram 4 4, [])] ∧
    fieldAt [0xFF, 0x0E] 0 2 < 0x0F00 ∧ 0x0FFF < fieldAt [0, 0x10] 0 2 ∧ 0x0F00 ≤ fieldAt [0, 0x0F] 0 2 ∧ fieldAt [0xFF, 0x0F] 0 2 ≤ 0x0FFF := by
  decide +kernel


/-! States that meet the hypotheses of the statements: data engines and the memory. -/

/-- A descriptor by its words 0, 1, 2, 6 and 7 (R265). -/
def raw (w0 w1 w2 w6 w7 : Nat) : List Byte := [w0, w1, w2, 0, 0, 0, w6, w7].flatMap (leBytes 8)
def hostA : Nat := 0x080000000000
def blkA : Nat := 0x100000000000
/-- One row of 64 bytes from host memory to host memory; to a block; from the cell of the issuing core; from an address that nothing backs; to a device. -/
def rawHost : List Byte := raw hostA (hostA + 64) 64 0 0
def rawBlk : List Byte := raw hostA blkA 64 0 0
def rawCell : List Byte := raw (4095 * 2 ^ 32) hostA 64 1 0
def rawBad : List Byte := raw 0x200000000 hostA 64 0 0
def rawFar : List Byte := raw hostA hostA 64 12 (1 + 2 ^ 48)
def itemOf (r : List Byte) : Item := { item0 with raw := r, phase := .running, total := 64, land := 64 }
def reqOf (p : ReqPhase) : Req := ⟨1023, 5, ⟨0, 64, some 0, 0, none⟩, p, false, zeros 64, 1, 0, false⟩
def coreReq (r : List Byte) (p : ReqPhase) : Core :=
  { core0 (cpu0 false) with dma := { Dma.reset with q := [itemOf r], reqs := [reqOf p] } }
def devReq (r : List Byte) (p : ReqPhase) : State := { dev (coreReq r p) with blks := [blk0 .heart 0] }

theorem witness_RequestsOfTheFetchStoreEngine :
    (∀ r ∈ [rawHost, rawBlk, rawCell, rawBad], ∀ p ∈ [ReqPhase.read, .write, .ack],
      (devReq r p).core? 0 = some (coreReq r p) ∧ (devReq r p).Calm ∧ Served (coreReq r p) ∧ (coreReq r p).cpu.st = .running ∧
        State.req? (coreReq r p) 1023 = some (reqOf p) ∧ State.itemOfReq (coreReq r p) (reqOf p) = some (itemOf r)) ∧
    (let s := devReq rawHost .read
     State.srcDest (itemOf rawHost) 0 = .mem hostA ∧ s.region hostA = .host ∧ s.poison.contains (hostA / 65536) = false ∧
       s.dstDest (itemOf rawHost) 0 = .mem (hostA + 64)) ∧
    (let s := devReq rawCell .read
     State.srcDest (itemOf rawCell) 0 = .cell 4095 0 ∧ (coreReq rawCell .read).job = some 0 ∧ s.cellTarget 0 (State.cellNumber (coreReq rawCell .read) 4095) = .core 0 ∧
       State.backedOff false 0 64 = true ∧ s.dstDest (itemOf rawCell) 0 = .mem hostA) ∧
    (let s := devReq rawBlk .write
     s.dstDest (itemOf rawBlk) 0 = .mem blkA ∧ s.region blkA = .tiered 0 ∧ s.blk? 0 = some (blk0 .heart 0) ∧ s.moveOf 0 = none ∧ (s.job 0).wins = []) ∧
    State.srcDest (itemOf rawBad) 0 = .mem 0x200000000 ∧ (devReq rawBad .read).region 0x200000000 = .bad ∧
    ∀ q ∈ (coreReq rawBad .read).dma.reqs, q.phase ≠ .held := by
  unfold State.Calm Served; decide +kernel

/-- ItemsStartAndComplete: an item that waits for nothing, one woken, one with a deadline in the next tick, one whose deadline has passed, one of length 0. -/
def queuedItem (r : List Byte) (d : Option Nat) (p : ItemPhase) : Item := { itemOf r with phase := p, deadline := d }
def coreItem (i : Item) : Core := { core0 (cpu0 false) with dma := { Dma.reset with q := [i] } }
def at1 (c : Core) : State := { dev c with now := 10240 }
theorem witness_ItemsStartAndComplete :
    (∀ i ∈ [queuedItem rawHost none .queued, queuedItem rawHost (some 2) .woken, queuedItem rawHost (some 1) .queued, queuedItem (raw hostA hostA 0 0 0) none .queued],
      let c := coreItem i
      (at1 c).core? 0 = some c ∧ (at1 c).Calm ∧ c.job = some 0 ∧ c.cpu.st = .running ∧ c.withheld = false ∧ c.dma.q.find? (fun x => x.uid == i.uid) = some i ∧
        c.dma.q.find? (fun x => x.phase != .running) = some i ∧ (i.phase = .woken ∨ i.startEn = false)) ∧
    (let i := queuedItem rawHost (some 2) .woken
     (∀ d ∈ i.deadline, (at1 (coreItem i)).now / 10240 < d) ∧ i.invalid = false ∧ i.dstModeRaw ≠ 2) ∧
    (∃ d ∈ (queuedItem rawHost (some 1) .queued).deadline, d ≤ 10240 / 10240) ∧
    (queuedItem (raw hostA hostA 0 0 0) none .queued).invalid = true ∧
    (let i := queuedItem rawHost (some 1) .running
     let c := coreItem i
     i.deadline = some 1 ∧ i.phase = .running ∧ Served { c with dma := { c.dma with q := [{ i with todo := [] }] } } ∧ (∀ r ∈ c.dma.reqs, r.item ≠ i.uid) ∧ i.rptEn = false ∧
       (∀ m ∈ (at1 c).cores, (∀ x ∈ m.dma.tracked, x.issuer ≠ some 0 ∨ x.item ≠ i.uid) ∧
         ∀ x ∈ m.dma.bufs ++ m.dma.waiting, x.issuer ≠ some 0 ∨ x.item ≠ i.uid) ∧
       i.failAt = none ∧ i.timedOut = false ∧ i.ownerLost = false ∧ i.members = [] ∧ (at1 c).ring? ((at1 c).job 0).ring = none ∧ ({ i with failAt := some 0 } : Item).failAt ≠ none) := by
  unfold State.Calm Served; decide +kernel

/-- ArrivalsLand: 63 landing buffers and 127 tracked items in use; a request of another device that lands at the end of scratch. -/
def arr : ArrReq := ⟨none, 0, 9, 0, 0, 0, 0x200000 - 64, zeros 64, 64, some 47, none, false, some ⟨(1, 0, 0), 0, 0⟩⟩
def coreArr (full : Bool) : Core :=
  { core0 (cpu0 false) with
    dma := { Dma.reset with bufs := if full then [arr] else List.replicate 63 arr, waiting := [arr], tracked := List.replicate 127 ⟨none, 9, 0, 0⟩ } }
theorem witness_ArrivalsLand :
    ((dev (coreArr false)).core? 0 = some (coreArr false) ∧ (dev (coreArr false)).Calm ∧ (coreArr false).dma.waiting = arr :: [] ∧ (coreArr false).dma.closed = false ∧
      (coreArr false).dma.bufs.length < 64 ∧ (coreArr false).dma.tracked.length < 128) ∧
    ((coreArr true).dma.bufs = arr :: [] ∧ arr.issuer = none) ∧
    (let s := dev (coreArr false)
     s.region hostA = .host ∧ s.poison.contains (hostA / 65536) = false ∧ hostA % 65536 + (zeros 256).length ≤ 65536 ∧ zeros 256 ≠ []) ∧
    (let s := dev (coreArr false)
     s.jobOfTag 0 = some 0 ∧ s.cellTarget 0 0 = .core 0 ∧ ((s.job 0).cells[0]?.map fun c => c.lead) = some (coreArr false).lead ∧
       State.backedOff false (0x200000 - 256) 256 = true ∧
       ∀ w ∈ (coreArr false).dma.waiting, w.item ≠ State.remoteKey (0, 0, 0) 5) := by
  unfold State.Calm; decide +kernel

/-! States that meet the hypotheses of the statements: placement, links, time. -/

def memReg1 : MemReg :=
  { MemReg.reset with hostGib := 4, mapValid := true, tieredMib := 1024, heartUsable := 1024, baseTotal := 8192,
                      chans := List.replicate 16 ⟨true, true, 1, 16, 0⟩, hbms := List.replicate 12 ⟨true, false, 0, false⟩ }
def place (bs : List Blk) (is : List Intent) (ms : List Move) : State :=
  { dev (core0 (cpu0 false)) with blks := bs, intents := is, moves := ms, memReg := memReg1, objs := [⟨7, 0, 1, 0, 0, 0, 0, 0, true, 1, 0, 1, 1⟩] }
def rise0 : Intent := ⟨0, true, 3, .pin 7⟩
def sinkLow : Intent := ⟨9, false, 2, .command 3⟩
def move0 (cow : Bool) (for_ : List Intent) : Move := ⟨0, 3, 3, 0, 0, cow, false, for_⟩
def frozen0 : Blk := { blk0 .frozen 1 with image := some ⟨0, 1, 0, none⟩ }

theorem witness_MovesOfThePlacementEngine_moves :
    (let s := place [blk0 .base 1] [sinkLow, rise0, rise0] []
     s.moverFailed.getD 3 true = false ∧ (s.moves.filter fun x => x.mover == 3).length < 64 ∧ s.intents = [sinkLow] ++ rise0 :: [rise0] ∧
       (∀ x ∈ [sinkLow], x.cls < rise0.cls) ∧ (∀ x ∈ [rise0], x.cls ≤ rise0.cls) ∧ rise0.cls < 4 ∧ s.startable rise0 = true) ∧
    (∀ m ∈ [move0 false [rise0], move0 true [], move0 false []], let s := place [frozen0] [] [m]
     s.Calm ∧ s.moveOf 0 = some m ∧ s.blk? 0 = some frozen0 ∧ (∀ x ∈ s.intents, x.block ≠ 0) ∧
       ∀ x ∈ m.for_, x.origin ≠ .reserve) ∧
    (∀ x ∈ (move0 false [rise0]).for_, ∀ u, x.origin ≠ .command u) ∧ (move0 true []).cow = true ∧ (move0 false []).for_ = [] ∧ frozen0.poisoned = false := by
  refine ⟨by decide +kernel, by unfold State.Calm; decide +kernel, ?_, rfl, rfl, rfl⟩
  intro x h u
  simp [move0] at h
  subst h
  simp [rise0]

/-- A run-ahead depth of 64 over an item that reads block 0, and one block that no object holds. -/
def coreAhead : Core :=
  { core0 { cpu0 false with rafDepth := 64 } with dma := { Dma.reset with q := [{ item0 with raw := raw blkA hostA 64 0 0 }] } }
theorem witness_MovesOfThePlacementEngine_touch :
    (let s := { place [blk0 .base 1] [] [] with cores := [coreAhead] }
     s.core? 0 = some coreAhead ∧ coreAhead.job = some 0 ∧
       ((coreAhead.dma.q.filter fun x => x.phase != .running).take (min 64 coreAhead.cpu.rafDepth)) = [{ item0 with raw := raw blkA hostA 64 0 0 }] ∧
       (State.sourceBlocks { item0 with raw := raw blkA hostA 64 0 0 }).contains 0 = true ∧ ((5, 0) : Nat × Nat) ∉ coreAhead.touches ∧
       (s.objOf 0).map (·.owner) = some 0 ∧ s.blk? 0 = some (blk0 .base 1) ∧ s.windowHeld 0 = false ∧ 0 < s.freeFrames 0) ∧
    ({ place [] [] [] with objs := [] } : State).objOf 0 = none := by decide +kernel

theorem witness_MemoryErrorsFound :
    (let s := place [] [] []
     s.Calm ∧ s.sliceOf hostA = (1, 0) ∧ s.region hostA = .host ∧ s.poison.contains (hostA / 65536) = false ∧
       s.memReg.hbms[11]? = some ⟨true, false, 0, false⟩ ∧ s.moves = [] ∧ s.intents = []) ∧
    (∃ slice, (place [] [] []).sliceOf 0x0C0000000000 = (0, slice) ∧ (place [] [] []).region 0x0C0000000000 = .heart) := by
  unfold State.Calm
  have h : (place [] [] []).region 0x0C0000000000 = .heart := by decide +kernel
  have e : ∃ x, (place [] [] []).sliceOf 0x0C0000000000 = (0, x) := by simp only [State.sliceOf, h]; exact ⟨_, rfl⟩
  exact ⟨by decide +kernel, e.choose, e.choose_spec, h⟩

/-- StreamWindowsAdvance: a window of two regions at its first and at its last, one that repeats, and a region that is late. -/
def region0 : WinRegion := ⟨blkA, 1, 0, 0, 0, 0, true, true, false, false, false⟩
def win0 (cursor period : Nat) : Win :=
  { num := 31, listAddr := hostA, regions := 2, depth := 1, flags := 0, predict := 0, leadNs := 0, lateNs := 0, periodNs := period, histAddr := 0, routeAddr := 0,
    active := true, start := 0, runs := 0, cursor, reverse := false, list := [region0, region0], late := 0, skipped := 0, versions := [] }
def devWin (w : Win) : State :=
  { place [blk0 .base 1] [] [] with
    jobs := { job0 with wins := [w] } :: List.replicate 7 Job.empty, objs := [⟨7, 0, 1, 0, 0, 0, 31, 0, false, 1, 0, 1, 1⟩] }
theorem witness_StreamWindowsAdvance : ∀ w ∈ [win0 0 0, win0 1 0, win0 1 1], let s := devWin w
    0 < s.jobs.length ∧ s.win? 0 31 = some w ∧ w.active = true ∧ (s.job 0).state = 4 ∧ w.predicted = false ∧ w.reverse = false ∧ w.turnaround = false ∧
      (w = win0 0 0 → w.cursor + 1 < w.list.length) ∧ (w ≠ win0 0 0 → w.cursor + 1 = w.list.length) ∧ (w = win0 1 1 → 0 < w.periodNs) ∧
      w.list[1]? = some region0 ∧ region0.chosen = true ∧ region0.ashed = false ∧ (w.planned w.reverse 1 + (w.lateNs : Int)).toNat ≤ s.now ∧
      s.regionCovers 0 31 region0 0 = true ∧ s.blk? 0 = some (blk0 .base 1) := by decide +kernel

/-- LinkStates: a link in each state, with a group, with two and with three retrains in the last 60 s, and one that is being disabled. -/
def link0 (st : Nat) : Link := { Link.reset true with state := st, group := 0 }
def devLink (l : Link) : State :=
  { hosted [] with
    links := List.replicate 35 (Link.reset true) ++ [l], now := 60000000000
    fab := { FabCfg.none with dx := 2, dy := 1, dz := 1, valid := true } }
theorem witness_LinkStates :
    (∀ k ∈ [1, 2, 3, 4, 5], (devLink (link0 k)).links[35]? = some (link0 k) ∧ (link0 k).held = [] ∧ (devLink (link0 k)).time.parent ≠ 35 ∧ (link0 k).group < 6 ∧
      (devLink (link0 k)).time.state ≠ 0) ∧
    (let l := { link0 4 with retrainTimes := [1, 2, 0] }
     (l.retrainTimes.filter fun t => decide ((devLink l).now < t + 60000000000)).length < 3) ∧
    (let l := { link0 4 with retrainTimes := [1, 2, 3] }; 3 ≤ (l.retrainTimes.filter fun t => decide ((devLink l).now < t + 60000000000)).length) ∧
    (let l := { link0 4 with disabling := true }; l.disabling = true ∧ (devLink l).Calm ∧ (devLink l).outs = []) ∧
    (let s := devLink (link0 3); ((1, 0, 0) : Nat × Nat × Nat) = ((s.fab.x + 1) % max 1 s.fab.dx, s.fab.y, s.fab.z) ∧ 18 / 18 = 35 / 18 ∧
      ((0, 0, 0) : Nat × Nat × Nat) ≠ ((s.fab.x + 1) % max 1 s.fab.dx, s.fab.y, s.fab.z)) := by
  unfold State.Calm; decide +kernel

/-- FlitsAndReplay: a flit of zeros with its CRC; one without; a NAK that names the oldest flit kept. -/
def flit0 : List Byte := zeros 252 ++ leBytes 4 (crc32 (zeros 252))
/-- A WRITE of no bytes to this device, and a flit of sequence number 0 that carries it. -/
def packet0 : List Byte := packetHeader (0, 0, 0) (1, 0, 0) pkWrite 0 1 0 0 0 0 0
def flit1 : List Byte := let b := zeros 8 ++ packet0 ++ zeros 220; b ++ leBytes 4 (crc32 b)
theorem witness_FlitsAndReplay_packet :
    flit1.length = 256 ∧ fieldAt flit1 252 4 = crc32 (flit1.take 252) ∧ fieldAt flit1 0 1 / 16 % 4 = 0 ∧ fieldAt flit1 0 8 / 2 ^ 6 % 2 ^ 12 = (link0 4).rxSeq ∧
    (link0 4).rx = [] ∧ (link0 4).unacked = [] ∧ (link0 4).txq = [] ∧ bytesAt flit1 8 244 = packet0 ++ List.replicate (244 - packet0.length) 0 ∧
    24 ≤ packet0.length ∧ packetLen packet0 = packet0.length ∧ (∃ b ∈ packet0.take 24, b ≠ 0) ∧
    packetDst packet0 = ((devLink (link0 4)).fab.x, (devLink (link0 4)).fab.y, (devLink (link0 4)).fab.z) ∧ (devLink (link0 4)).nseqSeen = [] ∧
    (devLink (link0 4)).Calm := by
  unfold State.Calm; decide +kernel

theorem witness_FlitsAndReplay :
    (devLink (link0 4)).links[35]? = some (link0 4) ∧ (link0 4).state = 4 ∧ flit0.length = 256 ∧ fieldAt flit0 252 4 = crc32 (flit0.take 252) ∧
    fieldAt flit0 0 1 / 16 % 4 = 0 ∧ fieldAt flit0 0 8 / 2 ^ 6 % 2 ^ 12 = (link0 4).rxSeq ∧ (zeros 255).length ≠ 256 ∧
    fieldAt (zeros 256) 252 4 ≠ crc32 ((zeros 256).take 252) ∧ ((List.replicate 14 59999000001).filter fun t => decide (60000000000 < t + 1000000)).length < 15 ∧
    (let l := { link0 4 with unacked := [(4095, ⟨3, 0, 0, []⟩)] }
     l.unacked = (4095, ⟨3, 0, 0, []⟩) :: [] ∧ (∀ u ∈ l.unacked, u.1 ≠ (4095 + 4095) % 4096) ∧ l.nakSeq ≠ 4095) := by decide +kernel

/-- UnreachableDevices: no requests, and one that waits for the acknowledgement of device (1, 0, 0). -/
def rawTo (x : Nat) : List Byte := raw hostA hostA 64 12 (x * 2 ^ 48)
def devFar : State := { devReq (rawTo 1) .ack with fab := { FabCfg.none with dx := 2, dy := 1, dz := 1, valid := true } }
theorem witness_UnreachableDevices :
    ((hosted []).Calm ∧ (hosted []).colls = [] ∧ (∀ j ∈ (hosted []).jobs, j.snap.state ≠ 2) ∧ ∀ c ∈ (hosted []).cores, c.dma.reqs = []) ∧
    devFar.Calm ∧ devFar.colls = [] ∧ (∀ j ∈ devFar.jobs, j.snap.state ≠ 2) ∧ devFar.cores.length = 0 + 1 ∧ devFar.core? 0 = some (coreReq (rawTo 1) .ack) ∧
    Served (coreReq (rawTo 1) .ack) ∧ (coreReq (rawTo 1) .ack).dma.reqs = [reqOf .ack] ∧ State.itemOfReq (coreReq (rawTo 1) .ack) (reqOf .ack) = some (itemOf (rawTo 1)) ∧
    (reqOf .ack).sentAt ≤ devFar.now ∧ devFar.dstDest (itemOf (rawTo 1)) 0 = .remote (1, 0, 0) hostA := by
  unfold State.Calm Served; decide +kernel

def devTime (t : TimeSt) (source : Nat) : State := { devLink (link0 4) with time := t, fab := { FabCfg.none with source, valid := true } }
def t0 (role state : Nat) : TimeSt := { TimeSt.reset with role, state }
theorem witness_TimeMaster : (t0 1 2).role = 1 ∧ (t0 1 2).parent < 64 ∧ (devTime (t0 1 0) 2).fab.source = 2 ∧ (t0 1 0).stepped = false ∧
    ({ t0 1 2 with stepped := true } : TimeSt).stepped = true ∧ (devTime (t0 1 0) 1).fab.source = 1 ∧ ({ t0 1 2 with srcLocked := true } : TimeSt).srcLocked = true ∧
    ({ t0 1 2 with srcLost := true } : TimeSt).srcLost = true := by decide

theorem witness_TimeFollowers :
    (∀ st ∈ [0, 1], let s := devTime { t0 0 st with stepped := st == 1 } 0
      s.time.role ≠ 1 ∧ s.time.parent < 64 ∧ s.links[35]? = some (link0 4) ∧ (∀ m < 35, ∀ k ∈ s.links[m]?, k.state ≠ 4) ∧ s.links.length = 36 ∧ s.time.valid = false ∧
        (link0 4).delayCount = 0 ∧ s.time.state = st ∧ s.time.stepped = (st == 1)) ∧
    (254 < 255 ∧ (t0 0 2).state = 2) ∧
    (let s := { devTime { t0 0 3 with holdSince := 59999000000 } 0 with now := 60000000000 }; s.time.state = 3 ∧ s.time.holdSince + 1000000 ≤ s.now) ∧
    ((t0 2 4).role = 2 ∧ (t0 2 4).role ≠ 1 ∧ (t0 2 4).state = 4) := by decide +kernel

/-! States that meet the hypotheses of the statements: the firmware's commands. -/

def ring63 : Ring := ⟨63, 6, 6, 0, 0, 0, 0, 0, [], false, false, false, [], false⟩
def ring5 : Ring := ⟨5, 6, 6, hostA + 0x20000, hostA + 0x30000, 0, 0, 0, [], false, false, false, [], false⟩
theorem plain_host (s : State) (a n : Nat) (h : 0x080000000000 ≤ a) (g : a + n ≤ 0x080000000000 + s.memReg.hostGib * 0x40000000) (g9 : a + n ≤ 0x090000000000)
    (hp : s.poison = []) : s.Plain a n := by
  intro k hk
  have r : s.region (a + k) = .host := by
    unfold State.region
    rw [if_neg (by omega), if_neg (by omega), if_neg (by simp only [Bool.and_eq_true, decide_eq_true_eq]; omega),
      if_pos (by simp only [Bool.and_eq_true, decide_eq_true_eq]; omega)]
  exact ⟨r, by simp [State.poisoned, r, hp]⟩

/-- The device serves commands of the management port and of ring 5; `b` is the record of job 0. -/
def serve (s : State) (b : Job) : State := { s with rings := [ring63, ring5], jobs := b :: List.replicate 7 Job.empty }
def idle (b : Job) : State := serve (place [blk0 .base 1] [] []) b
def hdr5 : Hdr := { hdr with ring := 5, fence := true }

/-- Calm, by what decides it. -/
def calmNow (s : State) : Bool :=
  (List.range 8).all (fun j => (s.job j).state != 7) && s.colls.all (fun c => c.phase != .notifying && c.phase != .released) && s.peerReplies == [] &&
    s.stalled == [] && s.intents.all (fun i => !s.satisfied i)

theorem calm_of_calmNow (s : State) (h : calmNow s = true) : s.Calm := by
  simp only [calmNow, Bool.and_eq_true, beq_iff_eq, List.all_eq_true, List.mem_range, bne_iff_ne, ne_eq, Bool.not_eq_true'] at h
  obtain ⟨⟨⟨⟨h1, h2⟩, h3⟩, h4⟩, h5⟩ := h
  exact ⟨h1, fun c hc => ⟨(h2 c hc).1, fun e => absurd e (h2 c hc).2⟩, h3, h4, h5⟩

/-- Ready on the management port, by what decides it. -/
def readyNow (s : State) : Bool :=
  s.fw.stage == 4 && calmNow s && s.ring? 63 == some ring63 && s.waitq.isEmpty && s.rings.all (fun x => !x.closing) &&
    s.outs.all (fun o => decide (o.uid < s.nextUid)) && s.jobs.all (fun j => j.startUid != some s.nextUid) && s.mem.wf

theorem ready_of_readyNow (s : State) (need : Nat) (h : readyNow s = true) : Ready s hdr ring63 need := by
  simp only [readyNow, Bool.and_eq_true, beq_iff_eq, List.all_eq_true, bne_iff_ne, ne_eq, decide_eq_true_eq, Bool.not_eq_true', List.isEmpty_iff] at h
  obtain ⟨⟨⟨⟨⟨⟨⟨h1, h2⟩, h3⟩, h4⟩, h5⟩, h6⟩, h7⟩, h8⟩ := h
  exact ⟨h1, calm_of_calmNow s h2, rfl, nofun, h3, rfl, rfl, by rw [h4]; nofun, h5, h6, h7, h8, .inl rfl⟩

/-- The rings that the tests use are in order. -/
theorem ringsOk_of (s : State) (hr : s.rings = [ring63, ring5]) (hm : s.memReg = memReg1) (hp : s.poison = []) : s.RingsOk := by
  intro x hx
  rw [hr] at hx
  simp only [List.mem_cons, List.not_mem_nil, or_false] at hx
  rcases hx with rfl | rfl
  · exact ⟨rfl, fun h => absurd h (by decide)⟩
  · exact ⟨rfl, fun _ => plain_host _ _ _ (by decide) (by rw [hm]; decide) (by decide) hp⟩

/-- Ready, on the management port and on a ring of the host, whose completion ring holds 64 entries. -/
theorem witness_Ready : Ready (idle job0) hdr ring63 2 ∧ (idle job0).ring? 5 = some ring5 ∧ 2 ≤ (idle job0).ringRoom ring5 ∧
    (idle job0).Plain ring5.cmpBase (64 + 32 * 2 ^ ring5.c) ∧ ring5.held = [] ∧ ring5.lost = false :=
  ⟨ready_of_readyNow _ _ (by decide +kernel), by decide +kernel, by decide +kernel, plain_host _ _ _ (by decide +kernel) (by decide +kernel) (by decide +kernel) rfl, rfl, rfl⟩

theorem witness_DeviceCommandsReply :
    (idle job0).ring? 63 = some ring63 ∧ (64 ≤ 64 ∧ 2 ^ 32 - 512 + 8 * 64 ≤ 2 ^ 32) ∧
    (∀ k ∈ [0, 1, 2, 3, 4, 5, 6, 7], ({ idle job0 with links := [link0 k] } : State).links[0]? = some (link0 k) ∧ (link0 k).disabling = false ∧ (link0 k).held = [] ∧
      (idle job0).time.parent ≠ 0) ∧
    (idle job0).trcs[5]? = some Trc.reset ∧ (idle job0).traceTotal 5 4096 ≤ (idle job0).traceMibSetting ∧ (idle job0).dev.selNext = [] ∧
    (idle job0).now % 10240 = 0 ∧ ({ idle job0 with now := 1 } : State).now % 10240 ≠ 0 ∧ (idle job0).armed = [] := by decide +kernel

/-- A command that waits for its release: SET_LINK_SHARES on the management port. -/
def out0 (uid : Nat) (c : Cmd) (p : OutPhase) (deadline : Option Nat) : Out := ⟨uid, { hdr with rt := some 20480 }, c, p, 0, deadline, false, [], 0, 0, false, (1, 2, 3)⟩
def waiting (os : List Out) : State := { idle job0 with outs := os, nextUid := 9 }
theorem witness_DeviceCommandsReply_cancel : let o := out0 8 (.setLinkShares 63 0) .armed none
    Ready (waiting [o]) hdr ring63 1 ∧ (waiting [o]).armed.find? (fun x => x.h.ring == o.h.ring && x.h.tag == o.h.tag) = some o ∧ o.h.ring < 64 ∧
    (waiting [o]).RingsOk := by
  exact ⟨ready_of_readyNow _ _ (by decide +kernel), by decide +kernel, by decide, ringsOk_of _ rfl rfl rfl⟩

theorem witness_RingsComeAndGo_memory : (idle job0).Plain (hostA + 0x100000) (64 + 64 * 2 ^ 6) ∧ (idle job0).Plain (hostA + 0x110000) (64 + 32 * 2 ^ 6) :=
  ⟨plain_host _ _ _ (by decide +kernel) (by decide +kernel) (by decide +kernel) rfl, plain_host _ _ _ (by decide +kernel) (by decide +kernel) (by decide +kernel) rfl⟩

theorem witness_RingsComeAndGo :
    (idle job0).ring? 61 = none ∧ hostA + 0x100000 = 0x080000100000 ∧
    Apart (hostA + 0x100000) (64 + 64 * 2 ^ 6) (hostA + 0x110000) (64 + 32 * 2 ^ 6) ∧ Apart (hostA + 0x100000) (64 + 64 * 2 ^ 6) 0x080000000000 131072 ∧
    (∀ x ∈ (idle job0).rings, x.num < 62 → Apart (hostA + 0x100000) (64 + 64 * 2 ^ 6) x.subBase (64 + 64 * 2 ^ x.s)) ∧
    ((idle job0).ring? 5).isSome ∧ 5 ≠ hdr.ring ∧ (∀ x ∈ (idle job0).rings, x.num = 5 → ∀ e ∈ x.held, e.reply = false) := by
  unfold Apart; decide +kernel

/-- FirmwareCommands: a session whose 4,096 staged bytes are written but for the last page, and one with all of them; a trial image. -/
def stagedFw (pages : List Nat) (trial : Bool) : State :=
  { idle Job.empty with
    fw := { (idle Job.empty).fw with session := true, trial, pages }, flash := Memory.write [] (flashStaging + 16) [0xFF, 0xEF, 0xFF, 0xFF] }
theorem witness_FirmwareCommands :
    (let s := stagedFw (List.range 15) true
     s.fw.session = true ∧ s.stagedLen = 4096 ∧ 15 * 256 % 256 = 0 ∧ 15 * 256 + 256 ≤ s.stagedLen ∧ ∀ p ∈ s.fw.pages, p < 15 * 256 / 256) ∧
    (let s := stagedFw (List.range 16) true; ceilDiv s.stagedLen 256 ≤ s.fw.pages.length) ∧ (idle job0).fw.session = false ∧ 128 ≤ (zeros 128).length ∧
    ((stagedFw [] false).Plain hostA 64 ∧ (∀ b ∈ (stagedFw [] false).jobs, b.state = 0) ∧ (∀ o ∈ (stagedFw [] false).outs, o.cmd.opcode ≠ 0x0703) ∧
      ∀ f ∈ (stagedFw [] false).flashOps, State.stageOp f = false) ∧
    fabricInRange ([31, 31, 15, 32, 32, 16, 0, 0] ++ zeros 56) = true ∧ (∃ b ∈ (idle job0).jobs, b.state ≠ 0) := by
  unfold State.Plain; decide +kernel

theorem witness_FlashOperationsComplete : ∀ f ∈ ([.stageHeader 8 1, .stageBody 8 1, .stageFinish 8 1 true, .stageFinish 8 1 false, .confirm 8, .ashClear 8 0,
      .fenceClear 8 0xFFFF, .fenceClear 8 639, .fabric 8] : List FlashOp),
    let s : State := { waiting [out0 8 .fwConfirm .running none] with flashOps := [f] }
    s.Calm ∧ s.RingsOk ∧ s.flashOps = f :: [] ∧ (∀ o ∈ s.outs, o.uid ≠ 8 → o.cmd.opcode ≠ 0x0703) ∧ 0 < s.ash.next ∧ 639 ≠ 0xFFFF := by
  intro f _ s
  exact ⟨calm_of_calmNow _ (show calmNow (waiting []) = true by decide +kernel), ringsOk_of _ rfl rfl rfl, rfl,
    (show ∀ o ∈ [out0 8 .fwConfirm .running none], o.uid ≠ 8 → o.cmd.opcode ≠ 0x0703 by decide), (show 0 < (waiting []).ash.next by decide +kernel), by decide⟩

/-! States that meet the hypotheses of the statements: jobs, objects, windows, snapshots, captures. -/

def jobIn (st : Nat) (c : Cell) : Job := { job0 with state := st, cells := [c] }
def saved (control : Bool) : Save := { Save.empty with state := 2, control := if control then some (cpu0 false) else none }
/-- The one core is free, or held by job `j`. -/
def withCore (s : State) (j : Option Nat) (u : Cpu) : State := { s with cores := [{ core0 u with job := j }] }
def progMem : Memory := Memory.write [] hostA (leBytes 4 0x4B545047 ++ [1, 0])
def fab1 : FabCfg := { FabCfg.none with dx := 1, dy := 1, dz := 1, valid := true }

theorem witness_JobCommands_load : ∀ st ∈ [0, 1],
    let s : State := { withCore (idle (if st = 0 then Job.empty else { Job.empty with state := 1 })) none (Cpu.reset false) with mem := progMem, fab := fab1 }
    let p : JobLoad := { load with program := hostA, flags := 2 * st }
    Ready s hdr ring63 2 ∧ s.jobs.length = 8 ∧ (∀ o ∈ s.outs, o.h.job ≠ 0) ∧ (s.job 0).state = (if bit p.flags 1 then 1 else 0) ∧ s.loadBad p = false ∧
      p.gx * p.gy ≤ s.lcns ∧ p.leads ≤ (s.cores.filter (·.lead)).length ∧ s.programBad p.program = none ∧ bit p.flags 0 = false := by
  intro st h
  have : st = 0 ∨ st = 1 := by simpa using h
  rcases this with e | e <;> subst e <;> exact ⟨ready_of_readyNow _ _ (by decide +kernel), by decide +kernel⟩

theorem witness_JobCommands :
    (∀ st ∈ [3, 4, 5, 6], readyNow (idle (jobIn st cell0)) = true ∧ (idle (jobIn st cell0)).jobs.length = 8 ∧ ((idle (jobIn st cell0)).job 0).state = st ∧
      ((idle (jobIn st cell0)).job 0).snap.stop = false ∧ (idle (jobIn st cell0)).jobObjs 1 = [] ∧ ((idle (jobIn st cell0)).job 0).caps = []) ∧
    (let s := withCore (idle (jobIn 4 cell0)) (some 0) (cpu0 false)
     cell0.valid = true ∧ (s.core? cell0.lcn).map (·.cpu.st) = some .running) ∧
    (let b := jobIn 5 { cell0 with valid := false, save := saved true }
     (∀ c ∈ b.cells, c.save.state = 2) ∧ (withCore (idle b) (some 1) (cpu0 false)).gridFits 0 [] = none ∧ bit b.flags 0 = false ∧
       (withCore (idle b) none (Cpu.reset false)).gridFits 0 [] = some [(0, 0)] ∧ ∃ c ∈ b.cells, c.save.control.isSome ∧ c.restored = false) ∧
    (let b := jobIn 4 { cell0 with lost := true, valid := false }
     b.cells[0]? = some { cell0 with lost := true, valid := false } ∧ (withCore (idle b) (some 1) (cpu0 false)).coreForCell false = none ∧
       (withCore (idle b) none (Cpu.reset false)).coreForCell false = some 0) ∧
    (let s := { idle job0 with objs := [] }; s.jobObjs 0 = [] ∧ s.colls = [] ∧ ∀ c ∈ s.cores, c.dma.q = [] ∧ c.dma.bufs = [] ∧ c.dma.waiting = [] ∧ c.dma.tracked = []) ∧
    ((idle job0).fwRead hostA (2 * 576)).isSome = true := by decide +kernel

/-- JobsStopSaveAndRestore: a job that waits for a core; a core with a stop request; a core that saves, in a job with another that does not; a core whose cell is
to be restored. -/
def cellSaving : Cell := { cell0 with save := { Save.empty with state := 1 } }
def jobStops (c : Cell) : Job := { jobIn 7 c with gx := 2, cells := [c, { cell0 with lcn := 1 }] }
def stops (c : Core) (b : Job) : State := { idle b with cores := [c, { core0 (cpu0 false) with cell := 1 }] }
def coreStop : Core := { core0 (cpu0 false) with stopSent := true }
def coreSaving : Core := core0 { cpu0 false with st := .saving }
def coreHeld : Core := { core0 (Cpu.reset false) with withheld := true }
def cellBack : Cell := { cell0 with save := saved true }
theorem witness_JobsStopSaveAndRestore :
    (let s := idle Job.empty
     s.jobs.length = 8 ∧ s.colls = [] ∧ s.peerReplies = [] ∧ s.stalled = [] ∧ s.intents = [] ∧ s.Calm ∧ (∀ j < 8, s.waitingJob j = none) ∧ s.outs = []) ∧
    (let o := out0 8 (.jobLoad load) .placing none
     let s := { withCore (idle { jobIn 2 cell0 with cells := [] }) none (Cpu.reset false) with outs := [o] }
     s.Calm ∧ (∀ k < 8, k ≠ 0 → s.waitingJob k = none) ∧ s.waitingJob 0 = some o ∧ (s.job 0).state = 2 ∧ s.gridFits 0 [] = some [(0, 0)]) ∧
    (let s := stops coreStop (jobStops cell0)
     s.core? 0 = some coreStop ∧ coreStop.job = some 0 ∧ coreStop.cell = 0 ∧ (∀ k < 8, k ≠ 0 → (s.job k).state ≠ 7) ∧ (s.job 0).caps = [] ∧
       (s.job 0).cells[0]? = some cell0 ∧ cell0.valid = true ∧ cell0.lcn = 0 ∧ coreStop.stopSent = true ∧ coreStop.cpu.st = .running ∧ coreStop.dma.q = [] ∧
       coreStop.dma.bufs = []) := by
  unfold State.Calm; decide +kernel

theorem witness_JobsStopSaveAndRestore_rings : (idle Job.empty).RingsOk ∧ (stops coreStop (jobStops cell0)).RingsOk :=
  ⟨ringsOk_of _ rfl rfl rfl, ringsOk_of _ rfl rfl rfl⟩

theorem witness_JobsStopSaveAndRestore_saves :
    (let s := stops coreSaving (jobStops cellSaving)
     (s.job 0).cells[0]? = some cellSaving ∧ coreSaving.cpu.st = .saving ∧ cellSaving.save.state = 1 ∧ cellSaving.save.control = none ∧ coreSaving.dma.waiting = [] ∧
       coreSaving.dma.tracked = [] ∧ (s.job 0).cells[1]? = some { cell0 with lcn := 1 } ∧ (s.core? 1).map (·.cpu.st) = some .running) ∧
    (let o := out0 8 .jobResume .placing none
     let s := { stops coreHeld { jobStops cellBack with state := 5 } with outs := [o] }
     (s.job 0).cells[0]? = some cellBack ∧ (s.job 0).state = 5 ∧ cellBack.restored = false ∧ coreHeld.withheld = true ∧ cellBack.save.state = 2 ∧
       cellBack.save.control.isSome = true ∧ s.waitingJob 0 = some o ∧ ((s.job 0).cells[1]?.map fun y => y.restored) = some false) := by decide +kernel

/-- PlacementCommands: the object at the end of the tiered range; an object of one block in each tier, unpinned and pinned once and twice. -/
def objs (pins : Nat) : List Obj := [⟨16383, 0, 1, 0, 0, 0, 63, 0, true, 1, pins, 1, 1⟩]
def placed (k : Blk) (pins : Nat) : State := { idle job0 with blks := [k], objs := objs pins }
theorem witness_PlacementCommands :
    (let s := placed (blk0 .base 1) 0
     let p : ObjMap := { map with first := 0x180000000000 - 65536, layout := 1, fmt := 1, block := 3, group := 63 }
     readyNow s = true ∧ s.jobs.length = 8 ∧ 1 ≤ (s.job 0).state ∧ (s.job 0).state ≤ 6 ∧ p.first % 65536 = 0 ∧ 0x100000000000 ≤ p.first ∧ 0 < p.count ∧
       p.first + 65536 * p.count ≤ 0x180000000000 ∧ p.layout < 2 ∧ p.fmt < 16 ∧ fmtReserved p.fmt = false ∧ p.block < 4 ∧ p.group < 64 ∧
       (∀ x ∈ s.objs, (p.first - 0x100000000000) / 65536 + p.count ≤ x.first ∨ x.first + x.count ≤ (p.first - 0x100000000000) / 65536) ∧ s.objs.length < 16384 ∧
       s.mappedCount + p.count ≤ s.memReg.tieredMib * 16 ∧ p.count ≤ s.freeFrames 0 + s.freeFrames 1) ∧
    (∀ pins ∈ [0, 1, 2, 65534], let s := placed (blk0 .base 1) pins
      s.obj? 16383 = some ⟨16383, 0, 1, 0, 0, 0, 63, 0, true, 1, pins, 1, 1⟩ ∧ s.intents = [] ∧ s.moves = [] ∧ s.blk? 0 = some (blk0 .base 1)) ∧
    ((placed (blk0 .heart 0) 0).held 0 = false ∧ (placed (blk0 .base 1) 0).held 0 = false ∧ (placed (blk0 .heart 0) 0).blk? 0 = some (blk0 .heart 0)) ∧
    (let s := placed (blk0 .base 1) 0; s.pinnedBlocks + 1 + s.heldBlocks ≤ s.frames 0) ∧
    (let d := leBytes 8 hostA ++ leBytes 2 4096 ++ [8, 2] ++ leBytes 4 512 ++ zeros 48
     let s := { placed (blk0 .base 1) 0 with mem := Memory.write [] hostA d }
     s.fwRead hostA 64 = some d ∧ 1 ≤ fieldAt d 8 2 ∧ fieldAt d 8 2 ≤ 4096 ∧ 1 ≤ fieldAt d 10 1 ∧ fieldAt d 10 1 ≤ 8 ∧ fieldAt d 0 8 % 32 = 0 ∧ fieldAt d 11 1 < 4 ∧
       1 ≤ fieldAt d 12 4 ∧ fieldAt d 12 4 ≤ 512) ∧
    (let s := idle { job0 with wins := [win0 0 0] }; s.win? 0 31 = some (win0 0 0) ∧ (s.fwRead hostA 64).isSome = true) := by decide +kernel

/-- TicksReleasesDeadlinesFences: before and after the boot; POWER_LIMIT waiting; commands at their release, at their deadline and behind their fence. -/
def tickIdle (fw : Nat) (os : List Out) : State := { idle job0 with fw := { Fw.reset 0 with stage := fw }, outs := os }
def share (uid : Nat) (p : OutPhase) (d : Option Nat) : Out := { out0 uid (.setLinkShares 63 0) p d with h := hdr }
theorem witness_TicksReleasesDeadlinesFences :
    (let s := tickIdle 2 []; s.Calm ∧ s.jobs.length = 8 ∧ s.fw.stage < 3 ∧ s.armed = []) ∧
    (∀ f ∈ [3, 4], let s : State := { tickIdle f [] with rings := [] }; 3 ≤ s.fw.stage ∧ s.fw.stage ≤ 4 ∧ s.armed = [] ∧ s.rings = [] ∧ ∀ b ∈ s.jobs, b.wins = []) ∧
    (let s : State := { tickIdle 4 [] with rings := [ring63], waitq := [⟨hdr, .powerLimit 900, 1, (1, 2, 3), none⟩] }
     s.armed = [] ∧ s.rings = [ring63] ∧ hdr.ring = 63 ∧ hdr.rt = none ∧ ∀ b ∈ s.jobs, b.wins = [] ∧ b.startUid = none) ∧
    (let a : Out := { share 3 .armed none with h := { hdr with rt := some 20481 } }
     let z : Out := { share 4 .armed none with h := { hdr with rt := some 20480 } }
     (tickIdle 4 [a]).armed[0]? = some a ∧ (∀ x ∈ (tickIdle 4 [a]).armed, a.releaseAt ≤ x.releaseAt) ∧ a.h.fence = false ∧
       (∀ x ∈ (tickIdle 4 [a]).outs, x.uid = a.uid → x = a) ∧ (tickIdle 4 [a, z]).armed[0]? = some a ∧ ∃ x ∈ (tickIdle 4 [a, z]).armed, x.releaseAt < a.releaseAt) ∧
    (let r := share 3 .running (some 7)
     (tickIdle 4 [r]).running[0]? = some r ∧ r.deadline = some 7 ∧ r.cmd.opcode ∉ [0x0101, 0x0104, 0x0203, 0x0204, 0x0302, 0x0303, 0x0401]) ∧
    (let f := share 3 .fenced none
     let before := share 2 .running none
     ((tickIdle 4 [f]).outs.filter fun x => x.phase == .fenced)[0]? = some f ∧ (∀ x ∈ (tickIdle 4 [f]).outs, x.h.ring = f.h.ring → f.uid ≤ x.uid) ∧
       ((tickIdle 4 [before, f]).outs.filter fun x => x.phase == .fenced)[0]? = some f ∧ ∃ x ∈ (tickIdle 4 [before, f]).outs, x.h.ring = f.h.ring ∧ x.uid < f.uid) := by
  unfold State.Calm; decide +kernel

theorem witness_TicksReleasesDeadlinesFences_rings : ∀ f l, (tickIdle f l).RingsOk := fun _ _ => ringsOk_of _ rfl rfl rfl

/-! States that meet the hypotheses of the statements: collectives, faults, captures, snapshots. -/

/-- ALL_REDUCE over X of 16 FP32 elements from and to host memory on engine W0; GLOBAL_NORM of one slot. -/
def collRaw : List Byte := [0, 1, 0, 0, 0, 0, 0, 0] ++ leBytes 8 (hostA + 0x200000) ++ leBytes 8 (hostA + 0x300000) ++ leBytes 8 16 ++ zeros 32
def normRaw (slots : Nat) : List Byte := [4, 0, 0, 0, 0, 0, 0, 0] ++ zeros 32 ++ leBytes 8 slots ++ leBytes 4 1 ++ leBytes 2 1 ++ zeros 10
def jobX : Job := { job0 with ex := 3, ey := 1, ez := 1 }
def coll (raw : List Byte) (ph : CollPhase) (axes : List Nat) (work : List Byte) : Coll := ⟨8, 63, 7, 0, raw, [0], ph, axes, work, [], [], 0, 0, 0, false, false⟩
def devColl (cs : List Coll) : State :=
  { idle jobX with colls := cs, nextUid := 9, fab := { FabCfg.none with dx := 4, dy := 1, dz := 1, valid := true }, mem := Memory.write [] hostA collRaw }

theorem witness_CollectivesRunAndEnd_start :
    (let s := devColl []
     let c := coll collRaw .accepted [] []
     readyNow s = true ∧ s.jobLive 0 = true ∧ (s.job 0).snap.stop = false ∧ s.fwRead hostA 64 = some collRaw ∧ c.invalid = false ∧ c.engine < 4 ∧
       (s.engines[c.engine]?.map fun g => (g.present, g.failed)) = some (true, false) ∧ c.op = 0 ∧ 0 < c.count ∧ 2 ≤ (s.job 0).extent ((State.collAxes c).headD 0) ∧
       (s.colls.filter fun x => x.busy && x.engines.contains c.engine).length < 8) ∧
    (let s := devColl (List.replicate 8 (coll collRaw .running [0] []))
     readyNow s = true ∧ 8 ≤ (s.colls.filter fun x => x.busy && x.engines.contains 0).length ∧ ∀ c ∈ s.colls, c.phase ≠ .released ∧ c.phase ≠ .notifying ∧ c.uid < s.nextUid) := by
  decide +kernel

theorem witness_CollectivesRunAndEnd_memory : (devColl []).Plain (hostA + 0x200000) (16 * elemBytes 0) := plain_host _ _ _ (by decide +kernel) (by decide +kernel) (by decide +kernel) rfl

theorem witness_CollectivesRunAndEnd_rings : ∀ cs, (devColl cs).RingsOk := fun _ => ringsOk_of _ rfl rfl rfl

theorem witness_CollectivesRunAndEnd_end :
    (let c := coll collRaw .running [0] (zeros 64)
     let s := devColl [c]
     s.Calm ∧ s.coll? 63 7 = some c ∧ (∀ x ∈ s.colls, x.uid = c.uid → x = c) ∧ c.phase = .running ∧ 0 ∈ State.collAxes c ∧ 1 < (s.job 0).extent 0 ∧
       1 ≠ s.position 0 0 s.here ∧ (∀ g ∈ c.got, ¬ (g.1 = 0 ∧ g.2.1 = 1)) ∧ 2 < (s.job 0).extent 0 ∧ 2 ≠ s.position 0 0 s.here ∧ c.norm = false ∧ c.notify = false ∧
       0 ∈ c.engines ∧ (s.engines[0]?).isSome ∧ c.axes ≠ []) ∧
    (let c := coll (normRaw hostA) .running [] []
     let s := devColl [c]
     s.Calm ∧ c.norm = true ∧ c.work = [] ∧ c.notify = false ∧ s.intents = [] ∧ s.moves = [] ∧ (s.readSlots c).isSome = true ∧ (s.readSlots c).map List.length ≠ some c.contributors ∧
       s.readSlots (coll (normRaw 0) .running [] []) = none) ∧
    (let c := coll collRaw .running [] (zeros 64)
     c.norm = false ∧ c.axes = [] ∧ c.work ≠ [] ∧ c.notify = false ∧ c.dst = hostA + 0x300000 ∧ (devColl [c]).mem.wf = true ∧
       (devColl [c]).outs = []) := by
  unfold State.Calm; decide +kernel

/-- FaultsAreContained: a core of no job and the core of a cell of a job whose policy continues; each kind of unit in use; a warden with and without a partner. -/
def jobOn : Job := { job0 with flags := 2 * 4 }
def devFault (c : Core) : State := { dev c with jobs := jobOn :: List.replicate 7 Job.empty }
theorem witness_FaultsAreContained :
    (let c := { core0 (cpu0 false) with phys := 639 }
     let s := devFault c
     s.Calm ∧ s.colls = [] ∧ s.rings = [] ∧ s.core? 0 = some c ∧ c.cpu.st ≠ .fenced ∧ c.phys < 640 ∧ c.dma = Dma.reset ∧ c.job = some 0 ∧ (s.job 0).state = 4 ∧
       (s.job 0).caps = [] ∧ (s.job 0).snap.stop = false ∧ (s.job 0).cells[c.cell]? = some cell0 ∧ cell0.save.state ≠ 1) ∧
    ((Core.fresh 639 false 0).job = none ∧ (Core.fresh 639 false 0).cpu.st ≠ .fenced) ∧
    (let s := devFault (core0 { cpu0 false with st := .fenced }); (s.core? 0).map (·.cpu.st) = some .fenced) ∧
    ((dev (core0 (cpu0 false))).moverFailed[3]? = some false ∧ ({ dev (core0 (cpu0 false)) with moves := [move0 false []] } : State).moves = [move0 false []] ∧
      (move0 false [sinkLow]).mover = 3 ∧ (move0 false []).mover ≠ 0 ∧
      ({ dev (core0 (cpu0 false)) with moves := [move0 false [sinkLow]] } : State).Calm ∧
      ∀ i ∈ (move0 false [sinkLow]).for_, ∀ k ∈ ({ dev (core0 (cpu0 false)) with moves := [move0 false [sinkLow]] } : State).blk? i.block,
        k.tier ≠ State.wantTier i) ∧
    ((dev (core0 (cpu0 false))).engines[3]? = some ⟨true, false, 0, ⟨0, 0, 0, 0, false⟩⟩ ∧ (dev (core0 (cpu0 false))).digestFailed[7]? = some false ∧
      (dev (core0 (cpu0 false))).capturePresent = true ∧ (dev (core0 (cpu0 false))).capEng[1]? = some ⟨false, 0⟩) ∧
    ((dev (core0 (cpu0 false))).wardens[19]? = some ⟨false, 0⟩ ∧ (dev (core0 (cpu0 false))).wardens[18]? = some ⟨false, 0⟩ ∧ 18 ∈ [18, 19] ∧ 18 ≠ 19 ∧
      ({ dev (core0 (cpu0 false)) with wardens := List.replicate 19 ⟨true, 0⟩ ++ [⟨false, 0⟩] } : State).wardens[18]? = some ⟨true, 0⟩) := by
  unfold State.Calm; decide +kernel

theorem witness_FaultsAreContained_policy : jobOn.policy = 2 := by decide

/-- CapturesCountersAndLogs: a descriptor of 2^32 bytes to host memory; slots in each phase; trace buffers off and running; a log with a record to copy. -/
def capRaw : List Byte := leBytes 8 hostA ++ leBytes 8 (2 ^ 32) ++ leBytes 8 hostA ++ zeros 14 ++ [0xFF, 0xFF] ++ zeros 16 ++ leBytes 8 0
def slot (p : CapPhase) : CapSlot := ⟨63, 0, capRaw, p, 0, 0, 0, 0, 0, 0, []⟩
def devCap (p : CapPhase) : State := { idle { job0 with caps := [slot p] } with mem := Memory.write [] hostA capRaw }
theorem witness_CapturesCountersAndLogs_commands :
    (∀ p ∈ [CapPhase.armed, .fired, .spent], readyNow (devCap p) = true ∧ 1 ≤ ((devCap p).job 0).state ∧ ((devCap p).job 0).state ≤ 6 ∧ (devCap p).capturePresent = true ∧
      (devCap p).cap? 0 63 = some (slot p) ∧ (slot p).phase ≠ .running ∧ (devCap p).fwRead hostA 64 = some capRaw) ∧
    0 < fieldAt capRaw 8 8 ∧ fieldAt capRaw 8 8 ≤ 2 ^ 32 ∧ fieldAt capRaw 16 8 % 64 = 0 ∧ (devCap .armed).region (fieldAt capRaw 16 8) = .host ∧ fieldAt capRaw 38 2 = 0xFFFF ∧
    (devCap .armed).capWordOk 0 (fieldAt capRaw 0 8) = true ∧ (devCap .armed).capWordOk 0 (fieldAt capRaw 56 8) = true ∧
    ({ devCap .armed with fuses := { Fuses.part with tk9620 := true } } : State).capturePresent = false ∧ (devCap .running).cap? 0 63 = some (slot .running) ∧
    cell0.lost = false ∧ (0 : Nat) ≠ 0xFFFF := by decide +kernel

theorem witness_CapturesCountersAndLogs_events :
    ((devCap .fired).cap? 0 63 = some (slot .fired) ∧ (slot .fired).status = 0 ∧ (devCap .fired).capEngineOf (slot .fired) = some 0 ∧ (devCap .fired).capturesOn 0 < 4 ∧
      (slot .fired).source = none) ∧
    ((devCap .running).capEng[(slot .running).onEngine]? = some ⟨false, 0⟩ ∧ (devCap .running).outs = [] ∧ (devCap .running).intents = [] ∧
      (devCap .running).moves = [] ∧ calmNow (devCap .running) = true) ∧
    (let c := { core0 (cpu0 false) with obs := { CoreObs.reset with queue := [zeros 32] } }
     c.obs.queue = zeros 32 :: [] ∧ c.obs.run = 0 ∧ dieOf c.phys = 0 ∧ (dev c).trcs[0]? = some Trc.reset ∧ Trc.reset.state = 0 ∧
       ({ Trc.reset with state := 1, mode := 1 } : Trc).trig = none) ∧
    (let s : State := { idle job0 with ash := { Ash.empty with mirror := [(1, zeros 512)], next := 2 } }
     s.ash.flashed + 1 < s.ash.next ∧ s.ash.viewed + 1 < s.ash.next ∧ s.memReg.mapValid = true ∧ s.ash.mirror.find? (fun r => r.1 == 1) = some (1, zeros 512) ∧ s.ash.oldest = 0) ∧
    State.reset.ash.next ≤ State.reset.ash.flashed + 1 ∧ State.reset.dev.rf[3]? = some 0 := by decide +kernel

/-- SnapshotsAndRestores: a job in each state that a snapshot may start in; a stop before and after its drain and its advance; images to take; a restore. -/
def snapIn (st : Nat) (f : Snap → Snap) : Job := { job0 with state := st, snap := f Snap.none }
def reserved (s : State) : State := { s with reserveKept := true, reserve := 262144, now := 25000000 }
theorem witness_SnapshotsAndRestores_commands :
    (∀ st ∈ [3, 4, 5, 6], let s := { idle (snapIn st id) with pcie := ⟨true, 8⟩ }
      readyNow s = true ∧ (s.job 0).state = st ∧ s.imagesLeft 0 = false ∧ (s.job 0).snap.state = 0) ∧
    (let s := { idle (snapIn 5 fun n => { n with lastBuddy := some (0, 0, 1) }) with fab := { FabCfg.none with dx := 2, dy := 1, dz := 1, valid := true } }
     (s.job 0).rest = none ∧ (∀ k < 8, k ≠ 0 → (s.job k).state = 0) ∧ 1 < s.fab.dx ∧ 0 < s.fab.dy ∧ 0 < s.fab.dz ∧ (s.fab.x, s.fab.y, s.fab.z) = ((0, 0, 0) : Nat × Nat × Nat) ∧
       ((0, 0, 0) : Nat × Nat × Nat) ≠ (1, 0, 0) ∧ (s.job 0).snap.lastBuddy.isSome = true ∧ 1000 ≤ 1000) := by decide +kernel

theorem witness_SnapshotsAndRestores_nvme (ns : Nat) (h : Config.free 0 88 (3 + 4 * ns) % 2 = 0) :
    ({ idle job0 with pcie := ⟨true, 8⟩ } : State).nvmeUsable 3 ns = true := by
  simp only [State.nvmeUsable, h]; decide

theorem witness_SnapshotsAndRestores_rings : ∀ b, (reserved (idle b)).RingsOk := fun _ => ringsOk_of _ rfl rfl rfl

def stop0 (state : Nat) (drained : Bool) : Snap → Snap := fun n => { n with stop := true, state, drained, uid := some 8, dests := 3 }
theorem witness_SnapshotsAndRestores_stop :
    (∀ st ∈ [4, 5], let s := reserved (idle (snapIn st (stop0 1 false)))
      s.Calm ∧ s.colls = [] ∧ (s.job 0).snap.stop = true ∧ (s.job 0).snap.start + 2000000 ≤ s.now ∧ s.drainDone 0 = true ∧
        (s.job 0).preemptHeld = false ∧ (s.job 0).snap.uid = some 8) ∧
    (let s := withCore (reserved (idle (snapIn 4 fun n => { stop0 1 false n with drain := [(0, 5)] }))) (some 0) (cpu0 false)
     ({ s with cores := [{ coreItem (itemOf rawHost) with job := some 0 }] } : State).drainDone 0 = false) ∧
    (let s := reserved (idle (snapIn 4 (stop0 1 true)))
     (s.job 0).snap.drained = true ∧ s.allQuiet 0 = true ∧ s.moves = [] ∧ 40 * (s.job 0).cells.length ≤ s.freeFrames 0 + s.reserve) ∧
    (let s := reserved (idle (snapIn 4 (stop0 2 true)))
     s.reserveSize ≤ s.reserve ∧ ({ s with reserve := 262143 } : State).reserve < s.reserveSize ∧ (s.job 0).snap.start + 25000000 ≤ s.now) := by
  unfold State.Calm; decide +kernel

def manifest0 (images : Nat) : List Byte := zeros 48 ++ leBytes 8 images ++ zeros 200
def rest0 (started waits : Bool) : Rest := ⟨8, 1, 1, (0, 0, 1), none, manifest0 2, started, 0, false, waits⟩
theorem witness_SnapshotsAndRestores_images :
    (let n := stop0 2 true { Snap.none with todo := [.frame 0 39 [], .block 0] }
     n.todo = .frame 0 39 [] :: [.block 0] ∧ bit n.dests 1 = true ∧ n.nvmeFailed = false ∧ ([.block 0] : List SnapImage) ≠ []) ∧
    (let k := { blk0 .frozen 1 with image := some ⟨0, 1, 0, none⟩ }
     let s := { idle (snapIn 4 fun n => { stop0 2 true n with todo := [.block 0, .block 1] }) with blks := [k] }
     s.digestFailed.all id = false ∧ s.blk? 0 = some k ∧ k.state = .frozen ∧ k.image = some ⟨0, 1, 0, none⟩ ∧ k.poisoned = false ∧ s.moveOf 0 = none ∧ s.keptImage 0 0 = none) ∧
    (let n := stop0 2 true Snap.none; n.todo = [] ∧ n.taken = n.total ∧ n.uid = some 8) ∧
    (let s := idle { snapIn 5 id with rest := some (rest0 true true) }; (s.job 0).rest = some (rest0 true true) ∧ ({ s with links := [] } : State).adoptReady (rest0 true true) = false) ∧
    (let s := idle { snapIn 5 id with rest := some (rest0 true false) }
     s.adoptReady (rest0 true false) = true ∧ (rest0 false false).started = false ∧ (rest0 true false).next + 1 < fieldAt (rest0 true false).manifest 48 8 ∧
       fieldAt (manifest0 1) 48 8 ≤ 0 + 1 ∧ (rest0 true false).bad = false) ∧
    ((idle job0).freeFrames 1 ≠ 0 ∧ (idle job0).store = [] ∧ ({ idle job0 with memReg := MemReg.reset } : State).freeFrames 1 = 0) := by decide +kernel

/-- StepKeepsStoresCanonical: the state after reset with a command in front. -/
theorem witness_StepKeepsStoresCanonical : (∀ c ∈ State.reset.cores, c.cpu = Cpu.reset c.lead) ∧ State.reset.mem = [] ∧ State.reset.flash = [] ∧
    ∃ t, step { State.reset with pending := [.powerSample 900] } = .next t := ⟨by decide +kernel, rfl, rfl, _, rfl⟩

/-! Results that the manual's tables and worked examples give. -/

/-- The bundle of the worked encoding (ch. 4). -/
theorem test_slot_words : slotWord (.addi 0 5 5 64) = some (0, 3, 0x11294040) ∧ slotWord (.mma 0 2 3 7 0) = some (0, 2, 0x1010C700) ∧
    slotWord (.vopAdd 0 4 65 8 2) = some (0, 1, 0x01482208) ∧ slotWord (.tld 0 0 9) = some (0, 0, 0x01048000) := by decide +kernel

/-- The same bundle decodes to its four instructions, the move slot from its lowest bits (ch. 4; R101). -/
theorem test_bundle_decodes : decodeBundle 0x112940401010C7000148220801048000 = ⟨.alu .add 5 5 (.imm 64), .mma 2 3 7 0 false, .vop .add 4 65 8 2, .tld 0 9⟩ ∧
    (leBytes 16 0x112940401010C7000148220801048000).take 4 = [0x00, 0x80, 0x04, 0x01] := by decide +kernel

/-- Die C1 with (0,5), (2,9), (3,1) and 13 cores of rows 4 to 15 disabled: (3,4) has LCN 175 (ch. 1). -/
theorem test_lcn :
    ((numberCores { Fuses.part with disabled := partDisabled 0 ++ [physIndex 1 0 5, physIndex 1 2 9, physIndex 1 3 1] ++ (partDisabled 1).drop 3
                                                ++ partDisabled 2 ++ partDisabled 3 } [])[175]?).map (·.phys) = some (physIndex 1 3 4) := by decide +kernel

/-- M = 512, N = 96, K = 80 in BF16: SQUARE, nine passes of 512 rows (ch. 3). -/
theorem test_passes_square : let e : Entry := { entry0 with m := 512, n := 96, k := 80, fmt := 1, arr := arrOf 0 80 1, stats := [⟨0, 1, 0, 32, 0, 0, false⟩] }
    e.passes = 9 ∧ (List.range 9).all (fun i => passCycles e i == 512) = true ∧ arrRows e.arr = 32 := by decide +kernel

/-- M = 256, N = 256, K = 8 in BF16: SHALLOW, two passes of 256 rows; forced into SQUARE, eight (ch. 3). -/
theorem test_passes_shallow : let e : Entry := { entry0 with m := 256, n := 256, k := 8, fmt := 1, arr := arrOf 0 8 1 }
    e.passes = 2 ∧ passCycles e 1 = 256 ∧ arrCols e.arr = 128 ∧ ({ e with arr := arrOf 1 8 1 } : Entry).passes = 8 := by decide +kernel

/-- X streams 256 rows from 203 and commits at 499; Y, held behind it, starts at 459 and commits at 627 (ch. 3). -/
theorem test_timeline : let x : Entry := { entry0 with m := 256, n := 32, k := 32, issued := 203, fmt := 1, arr := arrOf 1 32 1 }
    let y : Entry := { x with m := 128, issued := 213 }
    Cpu.passStartAt ArrayState.empty x = 203 ∧ 203 + passCycles x 0 + 40 = 499 ∧
      Cpu.passStartAt { ArrayState.empty with streamEnd := 203 + passCycles x 0, lastStart := 203 } y = 459 ∧ 459 + passCycles y 0 + 40 = 627 := by
  decide +kernel

/-- A block of E4M3 with block size 32: scale byte 0x78, codes 0x7D, 0x3A and 0x8D (ch. 5). -/
theorem test_block_scale : let xs : List Value := [.fin false 205 (-6), .fin false 41 (-12), .fin true 105 (-19)]
    blockScale e4m3 xs = 0x78 ∧ xs.map (blockElem e4m3 .nearest 0x78) = [0x7D, 0x3A, 0x8D] := by decide +kernel

/-- Philox-4×32-10's counter for position 1,025,292: word 0 of c0 = 0x3E943, and the words of one counter differ by position only (ch. 5). -/
theorem test_random_word : randWord 0x0123456789ABCDEF 0x4B0 0x31 1025292 =
    (Philox.run { c0 := 0x0003E943, c1 := 0, c2 := 0x000004B0, c3 := 0x00000031, k0 := 0x89ABCDEF, k1 := 0x01234567 }).c0 := by decide +kernel

/-- 1 + 2⁻⁹ + 2⁻¹¹ converts to BF16 1 + 2⁻⁷ for a word below 0x5000_0000 and to 1.0 from there on (ch. 5). -/
theorem test_stochastic : (bf16.conv (.stoch 0x4FFFFFFF) true (.fin false 2053 (-11))).code = 0x3F81 ∧
    (bf16.conv (.stoch 0x50000000) true (.fin false 2053 (-11))).code = 0x3F80 := by decide +kernel

/-- UPDC: the fourth and fifth update by 2⁻¹⁰ of a weight of 1.0 (ch. 5). -/
theorem test_updc : Cpu.updcElem (.fin false 1 0) (.fin false 3 (-10)) (.fin false 1 (-10)) = (0x3F80, bf16.rn (.fin false 1 (-8))) ∧
    Cpu.updcElem (.fin false 1 0) (.fin false 1 (-8)) (.fin false 1 (-10)) = (0x3F81, bf16.rn (.fin true 3 (-10))) := by decide +kernel

/-- Address 0x1000_0123_4A40: base tier DCH07 with 16 channels, DCH09 with the 12 of a TK9620, heart slice 87 on HBM5 (ch. 8). -/
def chan (use : Bool) : Chan := ⟨use, use, 1, 32, 0⟩
def striped (l : List Bool) (bs : List Blk) : State := { State.reset with memReg := { MemReg.reset with chans := l.map chan, mapValid := true, tieredMib := 1024 }, blks := bs }
theorem test_slices : (striped (List.replicate 16 true) []).stripes.length = 16 ∧
    (striped (List.replicate 16 true) [{ blk0 .base 1 with idx := 291 }]).sliceOf 0x100001234A40 = (1, 7) ∧
    (striped (List.replicate 6 true ++ [false, false] ++ List.replicate 6 true ++ [false, false]) [{ blk0 .base 1 with idx := 291 }]).sliceOf 0x100001234A40 = (1, 9) ∧
    (striped (List.replicate 16 true) [{ blk0 .heart 0 with idx := 291, stack := 5 }]).sliceOf 0x100001234A40 = (0, 87) := by decide +kernel

/-- The descriptor of the multicast item: its fields (ch. 10). -/
def rawGroup : List Byte := [0x0000100000400000, 0x0000000700040000, 0x20000, 0, 0, 0, 0x0042000018043008, 0x000027FFE00F42A4].flatMap (leBytes 8)
theorem test_descriptor : let i := Machine.itemOf 1 1000000 rawGroup
    i.dstModeRaw = 2 ∧ i.dstSem = some 3 ∧ i.rptAddr = 0x1FFF00 ∧ i.rptSem = 9 ∧ i.itemId = 0x42 ∧ i.len0 = 131072 ∧ i.rptEn = true ∧ i.startEn = false ∧
      (i.n1, i.n2, i.n3) = (1, 1, 1) ∧ i.deadline = some 1000100 ∧ i.invalid = false := by decide +kernel

/-- A release time of 4,229,120 ns is the start of tick 413; without dl a collective's deadline is tick 4,509 (ch. 12, ch. 13). -/
theorem test_release_and_deadline : tickOf 4229120 = 413 ∧ tickCeil 4208641 = 4218880 ∧
    State.deadlineOf { hdr with rt := some 4229120 } (.collRun 0) 4229120 = some (4509 * 10240) := by decide +kernel

/-- The TRIGGER buffer of 64 MiB with p = 4 (ch. 16). -/
def trc64 : Trc := { Trc.reset with sizeMib := 64, post := 4, mode := 1, base := 1200000 }
theorem test_trigger_buffer : State.trcCap trc64 = 2097152 ∧ State.trcPost trc64 = 524288 ∧ State.trcAddr trc64 1 5000000 = 0x0C0901896800 ∧
    State.trcAddr trc64 1 (5000000 + 524288 - 1) = 0x0C09028967E0 := by decide +kernel

/-- A dip of VDD_C2 to 690 mV at thermal level 2: C2's skip level is 8, the other dies are not slowed (ch. 18). -/
theorem test_supply_dip : let s := pw { p0 with thermal := [0, 0, 2, 0] }
    s.skipLevel 2 = 2 ∧ ((s.supplyDips 2 690).skipLevel 2, (s.supplyDips 2 690).skipLevel 0, (s.supplyDips 2 690).power.dip) = (8, 0, [0, 0, 8, 0]) := by
  decide +kernel

/-- Scalar results at their edges: sums wrap modulo 2⁶⁴, shift amounts, signed minimum, SCALE.DN rounds down (R111, R122). -/
theorem test_scalar_edges : aluVal .add (BitVec.ofNat 64 (2 ^ 64 - 1)) 1 = 0 ∧ aluVal .sub 0 1 = BitVec.ofNat 64 (2 ^ 64 - 1) ∧
    aluVal .min (BitVec.ofNat 64 (2 ^ 64 - 1)) 1 = BitVec.ofNat 64 (2 ^ 64 - 1) ∧ aluVal .sra (BitVec.ofNat 64 (2 ^ 63)) 63 = BitVec.ofNat 64 (2 ^ 64 - 1) := by
  decide +kernel

/-- FP64: 1 ÷ 3 rounds to nearest, √2, and conversion of 2.5 to an integer goes to the even one (R61, R118). -/
theorem test_fp64 : fp64.div .one (.ofInt 3) = 0x3FD5555555555555 ∧ fp64.sqrt (.ofInt 2) = 0x3FF6A09E667F3BCD ∧ toI64 (.fin false 5 (-1)) = 2 := by
  decide +kernel


/-- One step of one core, and what its execution state holds after it. -/
def stepCpu (u : Cpu) (i : Instr) : Option Cpu := match step { run u with pending := [i] } with
  | .next t => (t.core? 0).map (·.cpu)
  | _ => none
/-- An ADDI issues, the clock goes on by one cycle, and the result lands (R65, R111). -/
theorem test_addi_step : (stepCpu (cpu0 false) (.addi 0 5 5 64)).map (fun c => (c.cycle, c.sregs[5]?, c.pc)) = some (1, some 64, 1) := by decide +kernel

/-- The bundles after a branch, one by one. -/
def delayed (u : Cpu) (i : Instr) : Nat → Option Cpu
  | 0 => stepCpu u i
  | n + 1 => (delayed u i n).bind fun c => stepCpu c (.flagClr 0)
/-- BR.C decrements first: from 0 the counter wraps to 2³² − 1 and the branch is taken; three delay bundles follow, then the target (R41, R116). -/
theorem test_brC_wraps : (stepCpu (cpu0 false) (.brC 0 3 77)).map (fun c => (c.lcs[3]?, c.pc)) = some (some 0xFFFFFFFF, 1) ∧
    (delayed (cpu0 false) (.brC 0 3 77) 2).map (·.pc) = some 3 ∧ (delayed (cpu0 false) (.brC 0 3 77) 3).map (·.pc) = some 77 := by decide +kernel

/-- SEM.INC is on its way for 4 cycles: an update, not a count, after its own cycle (R187, R189). -/
theorem test_semInc_latency : (stepCpu (cpu0 false) (.semInc 0 47 5)).map (fun c => (c.sems[47]?, c.sups.map (·.land))) = some (some 0, [4]) := by decide +kernel

/-- LI sign-extends; SCALE.DN multiplies by a power of two and never goes below 2⁻¹²⁶ (R111, R122). -/
theorem test_li_scaleDn : (stepCpu (cpu0 false) (.li 0 1 0x40000)).map (fun c => c.sregs[1]?) = some (some (BitVec.ofInt 64 (-262144))) ∧
    scaleDnVal 0x3F800000 3 = 0x3E000000 ∧ scaleDnVal 0x01000000 15 = 0x00800000 := by decide +kernel

/-- A lead-processor instruction on an ordinary core is a no-op: the register keeps its value and the core goes on (R63, R107). -/
theorem test_lead_only : (stepCpu (cpu0 false) (.ldD 0 1 2 0)).map (fun c => (c.sregs[1]?, decide (c.st = .running), c.pc)) = some (some 0, true, 1) := by
  decide +kernel

end Sys2Proof.Tests
end

section
/-! PROOFS. What a host core's load or store does to memory (R208-R211, R219, R228). -/

namespace Sys2Proof.Machine
namespace State

/-! What counting the bytes of an access changes. -/

/-- `t` is `s` but for the values of the device's counters (R427). -/
def OnlyDevCounts (s t : State) : Prop := ∃ c, t = { s with dev := { s.dev with cnt := c } }

theorem OnlyDevCounts.refl (s : State) : OnlyDevCounts s s := ⟨s.dev.cnt, rfl⟩

theorem OnlyDevCounts.trans {s t u : State} (h : OnlyDevCounts s t) (g : OnlyDevCounts t u) : OnlyDevCounts s u := by
  obtain ⟨c, rfl⟩ := h
  obtain ⟨c', rfl⟩ := g
  exact ⟨c', rfl⟩

theorem OnlyDevCounts.eq {s t : State} (h : OnlyDevCounts s t) : t = { s with dev := { s.dev with cnt := t.dev.cnt } } := by
  obtain ⟨c, rfl⟩ := h
  rfl

theorem OnlyDevCounts.send {s t : State} (h : OnlyDevCounts s t) (x : Sent) : OnlyDevCounts (s.send x) (t.send x) := by
  obtain ⟨c, rfl⟩ := h
  exact ⟨c, rfl⟩

theorem OnlyDevCounts.spoilRings {s t : State} (h : OnlyDevCounts s t) (a n : Nat) : OnlyDevCounts (s.spoilRings a n) (t.spoilRings a n) := by
  obtain ⟨c, rfl⟩ := h
  exact ⟨c, rfl⟩

theorem onlyDevCounts_devCount (s : State) (e i n : Nat) : OnlyDevCounts s (s.devCount e i n) := ⟨_, rfl⟩

theorem onlyDevCounts_countAt (s : State) (x : Nat × Nat) (n : Nat) (store : Bool) (cls : Nat) : OnlyDevCounts s (s.countAt x n store cls) := by
  unfold countAt
  split
  · exact onlyDevCounts_devCount ..
  · exact (onlyDevCounts_devCount ..).trans (onlyDevCounts_devCount ..)

theorem onlyDevCounts_countRange (s : State) (a n : Nat) (store : Bool) (cls : Nat) (dies : List Nat) :
    OnlyDevCounts s (s.countRange a n store cls dies) := by
  unfold countRange
  refine List.foldlRecOn _ _ (.refl s) fun t ht p _ => ht.trans ?_
  dsimp only
  split
  · split
    · exact (onlyDevCounts_countAt ..).trans (onlyDevCounts_devCount ..)
    · exact onlyDevCounts_countAt ..
  · exact .refl t

/-! Where an address lies. -/

/-- Register space is the first 4 GiB (R207, R209). -/
theorem region_of_lt {s : State} {a : Nat} (h : a < 0x100000000) : s.region a = .reg a := by
  simp [region, h]

/-- An address of the scratch windows is backed by a core or by nothing (R211). -/
theorem region_of_windows {s : State} {a : Nat} (h1 : 0x100000000 ≤ a) (h2 : a < 0x200000000) :
    (∃ lcn off, s.region a = .window lcn off) ∨ s.region a = .bad := by
  simp only [region, Nat.not_lt.mpr h1, h2, if_true, if_false]
  split
  · split
    · exact .inl ⟨_, _, rfl⟩
    · exact .inr rfl
  · exact .inr rfl

/-- Register space has no address that nothing backs (R9, R209). -/
theorem le_of_region_bad {s : State} {a : Nat} (h : s.region a = .bad) : 0x100000000 ≤ a := by
  refine Nat.le_of_not_lt fun lt => ?_
  rw [region_of_lt lt] at h
  cases h

/-- The tiered range lies above the firmware heart window (R207). -/
theorem le_of_region_tiered {s : State} {a b : Nat} (h : s.region a = .tiered b) : 0x100000000000 ≤ a := by
  refine Nat.le_of_not_lt fun lt => ?_
  have below : ¬ (0x100000000000 ≤ a ∧ a < 0x180000000000) := by omega
  simp only [region, Bool.and_eq_true, decide_eq_true_eq, below, if_false] at h
  repeat' split at h
  all_goals cases h

/-- The host region begins at its fixed address and is as long as the host memory (R207). -/
theorem region_eq_host_iff {s : State} {a : Nat} :
    s.region a = .host ↔ 0x080000000000 ≤ a ∧ a < 0x090000000000 ∧ a < 0x080000000000 + s.memReg.hostGib * 0x40000000 := by
  constructor
  · intro h
    obtain ⟨lo, hi⟩ := region_host h
    refine ⟨lo, hi, Decidable.byContradiction fun out => ?_⟩
    simp only [region, out, Bool.and_eq_true, decide_eq_true_eq, and_false, if_false] at h
    repeat' split at h
    all_goals cases h
  · rintro ⟨lo, hi, size⟩
    have past : ¬ a < 0x100000000 ∧ ¬ a < 0x200000000 ∧ ¬ a < 0x050000000000 := by omega
    simp only [region, lo, hi, size, past, Bool.and_eq_true, decide_eq_true_eq, and_false, and_self, if_false, if_true]

/-- The host region ends where a block ends (R207). -/
theorem region_host_in_block {s : State} {a k : Nat} (h : s.region a = .host) (hk : a % 65536 + k < 65536) : s.region (a + k) = .host := by
  rw [region_eq_host_iff] at h ⊢
  omega

/-- Bytes of the host region within one block that is not poisoned are plain memory (R207, R229). -/
theorem plain_of_block {s : State} {a n : Nat} (h : s.region a = .host) (hp : s.poison.contains (a / 65536) = false) (hn : a % 65536 + n ≤ 65536) :
    s.Plain a n := by
  intro k hk
  have r := region_host_in_block (k := k) h (by omega)
  refine ⟨r, ?_⟩
  rw [poisoned, r, show (a + k) / 65536 = a / 65536 by omega]
  exact hp

/-- An access within one block visits that block only. -/
theorem blockStarts_of_block {a n : Nat} (h : a % 65536 + n ≤ 65536) : blockStarts a n = [a] := by
  rw [blockStarts, List.filter_eq_nil_iff.mpr]
  intro x hx
  obtain ⟨i, _, rfl⟩ := List.mem_map.mp hx
  simp only [decide_eq_true_eq]
  omega

/-! Blocks of the tiered range. -/

/-- The changed block is found, changed. -/
theorem blk?_modBlk {s : State} {b : Nat} {f : Blk → Blk} (hf : ∀ x, (f x).idx = x.idx) : (s.modBlk b f).blk? b = (s.blk? b).map f := by
  have e : ((fun x : Blk => x.idx == b) ∘ fun x => if x.idx == b then f x else x) = fun x => x.idx == b := by
    funext x
    simp only [Function.comp_apply, apply_ite Blk.idx, hf, ite_self]
  rw [blk?, modBlk_blks, List.find?_map, e, ← blk?]
  cases h : s.blk? b with
  | none => rfl
  | some x => simp only [Option.map_some, List.find?_some h, if_true]

/-- A block that is mapped and not poisoned can be read (R208, R229, R239). -/
theorem fwRead_tiered {s : State} {a n b : Nat} {x : Blk} (hr : s.region a = .tiered b) (hb : s.blk? b = some x) (hm : x.state ≠ .unmapped)
    (hp : x.poisoned = false) (hn : a % 65536 + n ≤ 65536) : s.fwRead a n = some (s.mem.read a n) := by
  simp [fwRead, blockStarts_of_block hn, hr, mapped, poisoned, hb, hm, hp]

/-- A write touches a block that is neither FROZEN nor moving, and finds it ready (R238, R240). -/
theorem readyBlock_settled {s : State} {a b : Nat} {x : Blk} (hr : s.region a = .tiered b) (hb : s.blk? b = some x) (hf : x.state ≠ .frozen)
    (hm : s.moveOf b = none) : s.readyBlock a = (s.touchBlk b, false) := by
  have still : s.abortMove b = s := by simp [abortMove, hm]
  have found : (s.touchBlk b).blk? b = some { x with access := tickOf s.now } := by
    rw [touchBlk, blk?_modBlk (f := fun y => { y with access := tickOf s.now }) fun _ => rfl, hb]
    rfl
  simp [readyBlock, hr, still, found, hf]

/-- A block that is mapped, not poisoned, neither FROZEN nor moving can be written: its bytes and its tick of last access change (R238-R242). -/
theorem fwWrite_tiered {s : State} {a b : Nat} {bs : List Byte} {x : Blk} (hr : s.region a = .tiered b) (hb : s.blk? b = some x)
    (hu : x.state ≠ .unmapped) (hf : x.state ≠ .frozen) (hp : x.poisoned = false) (hm : s.moveOf b = none) (hn : a % 65536 + bs.length ≤ 65536) :
    s.fwWrite a bs = some { s.touchBlk b with mem := s.mem.write a bs } := by
  have above := le_of_region_tiered hr
  have outside : ¬ (0x0C0000000000 ≤ a ∧ a < 0x0C8000000000) := by omega
  have place : (s.touchBlk b).region a = .tiered b := hr
  simp only [fwWrite, fwPut, Bool.and_eq_true, decide_eq_true_eq, outside, if_false, fwRead_tiered hr hb hu hp hn, blockStarts_of_block hn,
    List.foldl_cons, List.foldl_nil, readyBlock_settled hr hb hf hm, putBytes, place]
  rfl

/-! An access of a host core or of a function below the root port. -/

@[simp] theorem length_bytesAt (bs : List Byte) (o n : Nat) : (bytesAt bs o n).length = n := by simp [bytesAt]

/-- A load of the host region gives its bytes (R208). -/
theorem memAccess_load_host {s : State} {a n : Nat} {bs : List Byte} (d : List Byte) (hr : s.region a = .host) (h : s.fwRead a n = some bs) :
    OnlyDevCounts (s.send (.value bs)) (s.memAccess false a n d 0) := by
  simp only [memAccess, h, hr]
  exact (onlyDevCounts_countRange ..).send _

/-- A load of a block gives its bytes and touches the block (R208, R238). -/
theorem memAccess_load_tiered {s : State} {a n b : Nat} {bs : List Byte} (d : List Byte) (hr : s.region a = .tiered b) (h : s.fwRead a n = some bs) :
    OnlyDevCounts ((s.touchBlk b).send (.value bs)) (s.memAccess false a n d 0) := by
  simp only [memAccess, h, hr]
  exact (onlyDevCounts_countRange ..).send _

/-- A store leaves what the write leaves, and spoils the completion rings that it meets (R13, R208). -/
theorem memAccess_store {s t : State} {a n : Nat} {d : List Byte} (h : s.fwWrite a (bytesAt d 0 n) = some t) :
    OnlyDevCounts (t.spoilRings a n) (s.memAccess true a n d 0) := by
  have e : s.memAccess true a n d 0 = (t.countRange a n true 0 []).spoilRings a n := by simp [memAccess, h]
  rw [e]
  exact (onlyDevCounts_countRange ..).spoilRings ..

/-- Poisoned bytes of the host region cannot be read (R229). -/
theorem fwRead_poisoned {s : State} {a : Nat} (n : Nat) (hr : s.region a = .host) (hp : s.poison.contains (a / 65536) = true) : s.fwRead a n = none := by
  have bad : s.poisoned a = true := by
    rw [poisoned, hr]
    exact hp
  simp [fwRead, blockStarts, hr, bad]

/-- An access to bytes that cannot be read is a fault and changes nothing else (R208, R229). -/
theorem memAccess_unreadable {s : State} {a : Nat} (store : Bool) (n : Nat) (d : List Byte) (err : Nat) (h : ∀ k, s.fwRead a k = none) :
    s.memAccess store a n d err = s.send .accessFault := by
  cases store with
  | false => simp [memAccess, h]
  | true => simp [memAccess, fwWrite, fwPut, h]

/-! A host core's access. -/

/-- A read outside the registers of the cores and of observation changes nothing (R8, R426). -/
theorem regTouch_elsewhere {s : State} {a : Nat} (hc : a < 0x1000000 ∨ 0x1400000 ≤ a) (ho : a < 0x2300000 ∨ 0x2400000 ≤ a) : s.regTouch a = s := by
  have cores : ¬ (0x1000000 ≤ a ∧ a < 0x1400000) := by omega
  have obs : ¬ (0x2300000 ≤ a ∧ a < 0x2400000) := by omega
  simp only [regTouch, Bool.and_eq_true, decide_eq_true_eq, cores, obs, if_false, ite_self]

/-- Host cores make accesses: the device has host memory, and its firmware has started them (R208, R456). -/
def HostRuns (s : State) : Prop := s.memReg.hostGib ≠ 0 ∧ 3 ≤ s.fw.stage

section
variable {s : State} {a : Nat} (hs : HostRuns s)
include hs

/-- The device answers a host core that runs. -/
theorem HostRuns.answers : (decide (s.memReg.hostGib = 0) || decide (s.fw.stage < 3)) = false := by
  obtain ⟨hg, hf⟩ := hs
  simp [hg, hf]

/-- A store into register space has no effect (R10). -/
theorem hostAccess_store_register (n : Nat) (d : List Byte) (err : Nat) (h : a < 0x100000000) : s.hostAccess true a n d err = s := by
  simp [hostAccess, hs.answers, region_of_lt h]

/-- A load from register space gives a register when it has 8 aligned bytes, and zeros else (R11). -/
theorem hostAccess_load_register (n : Nat) (d : List Byte) (err : Nat) (h : a < 0x100000000) :
    s.hostAccess false a n d err =
      if n = 8 ∧ a % 8 = 0 then (s.regTouch a).send (.value (leBytes 8 (s.regVal a))) else s.send (.value (List.replicate n 0)) := by
  simp [hostAccess, hs.answers, region_of_lt h]

/-- The scratch windows, backed or not, take no store of a host core and read 0 to it (R211). -/
theorem hostAccess_window (store : Bool) (n : Nat) (d : List Byte) (err : Nat) (h1 : 0x100000000 ≤ a) (h2 : a < 0x200000000) :
    s.hostAccess store a n d err = if store then s else s.send (.value (List.replicate n 0)) := by
  rcases region_of_windows (s := s) h1 h2 with ⟨lcn, off, r⟩ | r
  · simp [hostAccess, hs.answers, r]
  · simp [hostAccess, hs.answers, r, h1, h2]

/-- An address beyond the windows that nothing backs gives an access fault (R208). -/
theorem hostAccess_bad (store : Bool) (n : Nat) (d : List Byte) (err : Nat) (h : s.region a = .bad) (out : a < 0x100000000 ∨ 0x200000000 ≤ a) :
    s.hostAccess store a n d err = s.send .accessFault := by
  have above := le_of_region_bad h
  have beyond : ¬ a < 0x200000000 := by omega
  simp [hostAccess, hs.answers, h, beyond]

/-- The host region is memory to a host core (R208). -/
theorem hostAccess_host (store : Bool) (n : Nat) (d : List Byte) (err : Nat) (h : s.region a = .host) :
    s.hostAccess store a n d err = s.memAccess store a n d err := by
  simp [hostAccess, hs.answers, h]

/-- The tiered range is memory to a host core (R208). -/
theorem hostAccess_tiered {b : Nat} (store : Bool) (n : Nat) (d : List Byte) (err : Nat) (h : s.region a = .tiered b) :
    s.hostAccess store a n d err = s.memAccess store a n d err := by
  simp [hostAccess, hs.answers, h]

end

end State

/-- REGISTER_WRITE leaves the state as it is. -/
theorem exec_registerWrite (a w v : Nat) (s : State) : exec (.registerWrite a w v) s = .next s := rfl

/-- HOST_ACCESS is a host core's access. -/
theorem exec_hostAccess (store : Bool) (a n : Nat) (d : List Byte) (err : Nat) (s : State) :
    exec (.hostAccess store a n d err) s = .next (s.hostAccess store a n d err) := rfl

/-- HOST_ACCESS ends in the state that the access leaves, which is given up to the device's counters. -/
theorem exec_hostAccess_upto_counts {store : Bool} {a n : Nat} {d : List Byte} {err : Nat} {s u : State}
    (h : State.OnlyDevCounts u (s.hostAccess store a n d err)) :
    ∃ t, exec (.hostAccess store a n d err) s = .next t ∧ t = { u with dev := { u.dev with cnt := t.dev.cnt } } :=
  ⟨_, exec_hostAccess .., h.eq⟩

end Sys2Proof.Machine

namespace Sys2Proof.Claims

open Sys2Proof.Machine State

/-- Settles O32, by cases on the region in which the address lies. -/
theorem hostAccesses : Obligations.HostAccesses := by
  intro s a n d hg hf counted meets rings touched
  have hs : HostRuns s := ⟨hg, hf⟩
  refine ⟨fun w v => exec_registerWrite a w v s, ?registers, ?windows, ?hostRegion, ?tieredRange, ?faults⟩
  case registers =>
    refine fun lt => ⟨fun err => ?_, fun err part => ?_, fun err aligned hc ho => ?_⟩
    · rw [exec_hostAccess, hostAccess_store_register hs n d err lt]
    · rw [exec_hostAccess, hostAccess_load_register hs n d err lt, if_neg (by omega)]
      rfl
    · rw [exec_hostAccess, hostAccess_load_register hs 8 d err lt, if_pos ⟨rfl, aligned⟩, regTouch_elsewhere hc ho]
      rfl
  case windows =>
    refine fun lo hi err => ⟨?_, ?_⟩
    · rw [exec_hostAccess, hostAccess_window hs true n d err lo hi, if_pos rfl]
    · rw [exec_hostAccess, hostAccess_window hs false n d err lo hi]
      rfl
  case hostRegion =>
    intro hn line hr hp
    have plain : s.Plain a n := plain_of_block hr hp (by omega)
    refine ⟨exec_hostAccess_upto_counts ?_, exec_hostAccess_upto_counts ?_⟩
    · rw [hostAccess_host hs false n d 0 hr]
      exact memAccess_load_host d hr (fwRead_plain plain hn)
    · rw [hostAccess_host hs true n d 0 hr]
      exact memAccess_store (fwWrite_plain (by rwa [length_bytesAt]) (List.ne_nil_of_length_pos (by rwa [length_bytesAt])))
  case tieredRange =>
    intro b x hn line hr hb hu hz hp hm
    have block : a % 65536 + n ≤ 65536 := by omega
    refine ⟨exec_hostAccess_upto_counts ?_, exec_hostAccess_upto_counts ?_⟩
    · rw [hostAccess_tiered hs false n d 0 hr]
      exact memAccess_load_tiered d hr (fwRead_tiered hr hb hu hp block)
    · rw [hostAccess_tiered hs true n d 0 hr]
      exact memAccess_store (fwWrite_tiered hr hb hu hz hp hm (by rwa [length_bytesAt]))
  case faults =>
    intro cannot out store err
    rcases cannot with hr | ⟨hr, hp⟩
    · rw [exec_hostAccess, hostAccess_bad hs store n d err hr out]
      rfl
    · rw [exec_hostAccess, hostAccess_host hs store n d err hr, memAccess_unreadable store n d err fun k => fwRead_poisoned k hr hp]
      rfl

end Sys2Proof.Claims
end

section
/-! PROOFS. The cores as a device reset numbers them (R17-R21), and what the registers hold after one. -/

namespace Sys2Proof.Machine

/-- The enabled cores of a die are cores of that die (R17). -/
theorem die_of_mem_enabledCores {f : Fuses} {fenced : List Nat} {d p : Nat} (h : p ∈ enabledCores f fenced d) : dieOf p = d := by
  obtain ⟨i, hi, rfl⟩ := List.mem_map.mp (List.mem_filter.mp h).1
  have := List.mem_range.mp hi
  unfold dieOf
  omega

/-- The enabled cores of a die come in rising physical order (R18). -/
theorem enabledCores_sorted (f : Fuses) (fenced : List Nat) (d : Nat) : (enabledCores f fenced d).Pairwise (· < ·) :=
  ((List.pairwise_map.mpr (List.pairwise_lt_range.imp fun lt => Nat.add_lt_add_left lt (160 * d))).filter _)

/-- Without fenced cores no spare serves: the enabled cores of a die are those that its fuses leave on (R17, R21). -/
theorem enabledCores_unfenced (f : Fuses) (d : Nat) :
    enabledCores f [] d = ((List.range 160).map fun i => 160 * d + i).filter fun p => !f.disabled.contains p := by
  have fencedOn (l : List Nat) : (l.filter fun p => ([] : List Nat).contains p) = [] := List.filter_eq_nil_iff.mpr fun _ _ => Bool.false_ne_true
  refine List.filter_congr fun p hp => ?_
  simp only [fencedOn, List.foldl_nil]
  rw [List.contains_nil, Bool.not_false, Bool.and_true, Bool.or_false, Bool.eq_iff_iff, List.contains_iff_mem, List.mem_filter]
  exact and_iff_right hp

/-- The cores of a device reset under their LCNs are the enabled cores of the dies in turn (R18). -/
theorem map_phys_numberCores (f : Fuses) (fenced : List Nat) :
    (numberCores f fenced).map (fun c => c.phys) = (List.range 4).flatMap (enabledCores f fenced) := by
  simp [numberCores, List.map_flatMap, Core.fresh, Function.comp_def]

/-- LCNs rise with the physical order (R18). -/
theorem numberCores_sorted (f : Fuses) (fenced : List Nat) : ((numberCores f fenced).map fun c => c.phys).Pairwise (· < ·) := by
  rw [map_phys_numberCores, List.pairwise_flatMap]
  refine ⟨fun d _ => enabledCores_sorted f fenced d, List.pairwise_lt_range.imp fun {d e} lt p hp q hq => ?_⟩
  have dp := die_of_mem_enabledCores hp
  have dq := die_of_mem_enabledCores hq
  unfold dieOf at dp dq
  omega

/-- Every core that a device reset numbers has nothing placed on it (R18, R68). -/
theorem eq_fresh_of_mem_numberCores {f : Fuses} {fenced : List Nat} {c : Core} (h : c ∈ numberCores f fenced) :
    c = Core.fresh c.phys c.lead c.leadIndex := by
  obtain ⟨d, _, hc⟩ := List.mem_flatMap.mp h
  obtain ⟨p, _, rfl⟩ := List.mem_map.mp hc
  rfl

/-- The cores of a die among those of a device reset are its enabled ones (R18). -/
theorem dieCount_of_cores {s : State} {f : Fuses} {fenced : List Nat} (h : s.cores = numberCores f fenced) {d : Nat} (hd : d < 4) :
    s.dieCount d = (enabledCores f fenced d).length := by
  have on (e : Nat) : (enabledCores f fenced e).countP (fun p => dieOf p == d) = if e = d then (enabledCores f fenced d).length else 0 := by
    split
    · next e => subst e; exact List.countP_eq_length.mpr fun p hp => by simp [die_of_mem_enabledCores hp]
    · next ne => exact List.countP_eq_zero.mpr fun p hp => by simp [die_of_mem_enabledCores hp, ne]
  have := map_phys_numberCores f fenced
  rw [State.dieCount, h, ← List.countP_eq_length_filter]
  rw [show (fun c : Core => dieOf c.phys == d) = (fun p => dieOf p == d) ∘ fun c => c.phys from rfl, ← List.countP_map, this, List.countP_flatMap]
  simp only [on, Function.comp_def]
  have four : d = 0 ∨ d = 1 ∨ d = 2 ∨ d = 3 := by omega
  rcases four with rfl | rfl | rfl | rfl <;> simp [List.range_succ]

/-! The part of the reset state (log entry 15). -/

/-- The cores of a die of the part that are left on, by their places in the die. -/
def partPlaces : List Nat := (List.range 160).filter fun i => decide (i < 140) || (decide (146 ≤ i) && decide (i < 150))

/-- The part's disabled cores: row 15 of each die, and the columns 0 to 5 of row 14 (log entry 15). -/
theorem mem_disabled_part {p : Nat} : p ∈ Fuses.part.disabled ↔ p < 640 ∧ (140 ≤ p % 160 ∧ p % 160 < 146 ∨ 150 ≤ p % 160) := by
  simp only [Fuses.part, partDisabled, physIndex, List.mem_flatMap, List.mem_append, List.mem_map, List.mem_range]
  constructor
  · rintro ⟨d, hd, ⟨c, hc, rfl⟩ | ⟨c, hc, rfl⟩⟩ <;> omega
  · rintro ⟨lt, ⟨lo, hi⟩ | lo⟩
    · exact ⟨p / 160, by omega, .inl ⟨p % 160 - 140, by omega, by omega⟩⟩
    · exact ⟨p / 160, by omega, .inr ⟨p % 160 - 150, by omega, by omega⟩⟩

/-- The enabled cores of a die of the part. -/
theorem enabledCores_part {d : Nat} (hd : d < 4) : enabledCores Fuses.part [] d = partPlaces.map fun i => 160 * d + i := by
  rw [enabledCores_unfenced, List.filter_map, partPlaces]
  refine congrArg _ (List.filter_congr fun i hi => ?_)
  have := List.mem_range.mp hi
  rw [Bool.eq_iff_iff]
  simp only [Function.comp_apply, Bool.not_eq_true', ← Bool.not_eq_true, List.contains_iff_mem, mem_disabled_part, Bool.or_eq_true, Bool.and_eq_true,
    decide_eq_true_eq]
  omega

/-- Each die of the part has 144 cores enabled. -/
theorem length_enabledCores_part {d : Nat} (hd : d < 4) : (enabledCores Fuses.part [] d).length = 144 := by
  rw [enabledCores_part hd, List.length_map]
  rfl

/-- A die has as many lead cores as lead spots enabled, up to four (R19). -/
theorem length_leadCores (f : Fuses) (fenced : List Nat) (d : Nat) :
    (leadCores f fenced d).length = (((leadSpots d).filter fun p => (enabledCores f fenced d).contains p).take 4).length := by
  have spots : (leadSpots d).Nodup := by simp [leadSpots, physIndex]
  have on : (enabledCores f fenced d).Nodup := (enabledCores_sorted f fenced d).imp Nat.ne_of_lt
  refine List.Perm.length_eq ((List.perm_ext_iff_of_nodup (on.filter _) ((spots.filter _).sublist (List.take_sublist 4 _))).mpr fun p => ?_)
  rw [List.mem_filter, List.contains_iff_mem]
  exact ⟨And.right, fun h => ⟨List.contains_iff_mem.mp (List.mem_filter.mp (List.mem_of_mem_take h)).2, h⟩⟩

/-- Each die of the part has four lead cores (R19). -/
theorem length_leadCores_part {d : Nat} (hd : d < 4) : (leadCores Fuses.part [] d).length = 4 := by
  rw [length_leadCores, enabledCores_part hd]
  revert d
  decide

/-- The lead cores among those of a device reset are those of the dies together (R19). -/
theorem countP_lead_numberCores (f : Fuses) (fenced : List Nat) :
    (numberCores f fenced).countP (fun c => c.lead) = ((List.range 4).map fun d => (leadCores f fenced d).length).sum := by
  rw [numberCores, List.countP_flatMap]
  refine congrArg _ (List.map_congr_left fun d _ => ?_)
  rw [Function.comp_apply, List.countP_map, leadCores, ← List.countP_eq_length_filter]
  refine List.countP_congr fun p hp => ?_
  simp [Core.fresh, hp]

namespace State

theorem reset_cores : reset.cores = numberCores Fuses.part [] := rfl

/-- After reset each die has 144 cores (R18). -/
theorem dieCount_reset {d : Nat} (hd : d < 4) : reset.dieCount d = 144 := by
  rw [dieCount_of_cores reset_cores hd, length_enabledCores_part hd]

/-- After reset 576 cores have LCNs (R18). -/
theorem length_cores_reset : reset.cores.length = 576 := by
  rw [← List.length_map (f := fun c : Core => c.phys), reset_cores, map_phys_numberCores, List.length_flatMap]
  simp [List.range_succ, length_enabledCores_part]

/-- After reset a core is as fresh as it was made: nothing runs on it, and its stores are empty (R68; log entries 5, 7). -/
theorem eq_fresh_of_mem_cores_reset {c : Core} (h : c ∈ reset.cores) : c = Core.fresh c.phys c.lead c.leadIndex := eq_fresh_of_mem_numberCores h

/-- SIZE_CORES gives the LCNs in use, the cores of each die, and the lead cores (R34). -/
theorem regVal_sizeCores (s : State) : s.regVal 0x1020 =
    pack [(0, 16, s.lcns), (16, 8, s.dieCount 0), (24, 8, s.dieCount 1), (32, 8, s.dieCount 2), (40, 8, s.dieCount 3),
      (48, 5, (s.cores.filter (·.lead)).length)] := by
  simp [regVal, infoReg]

theorem regVal_sizeCores_reset : reset.regVal 0x1020 = 576 + 144 * 2 ^ 16 + 144 * 2 ^ 24 + 144 * 2 ^ 32 + 144 * 2 ^ 40 + 16 * 2 ^ 48 := by
  have leads : (reset.cores.filter (·.lead)).length = 16 := by
    rw [← List.countP_eq_length_filter, reset_cores, countP_lead_numberCores]
    simp [List.range_succ, length_leadCores_part]
  have cores : reset.lcns = 576 := length_cores_reset
  simp only [regVal_sizeCores, cores, leads, dieCount_reset, Nat.reduceLT]
  decide

/-- A register of CORE_AVAIL holds the bits of 64 cores (R34). -/
theorem regVal_coreAvail (s : State) {k : Nat} (hk : k < 9) :
    s.regVal (0x1040 + 8 * k) = bitsOf (((s.cores.drop (64 * k)).take 64).map (·.avail)) := by
  have : (0x1040 + 8 * k) % 8 = 0 := by omega
  have block : 0x1000 ≤ 0x1040 + 8 * k ∧ 0x1040 + 8 * k < 0x2000 := by omega
  have off : 0x1040 + 8 * k - 0x1000 = 0x40 + 8 * k := by omega
  have lo : 0x40 + 8 * k ≤ 0x80 := by omega
  have drop : 8 * (0x40 + 8 * k - 0x40) = 64 * k := by omega
  simp only [regVal, infoReg, this, block, off, lo, drop, Bool.and_eq_true, decide_eq_true_eq, ne_eq, not_true_eq_false, if_false, and_self, if_true]
  simp +arith

end State

/-- Bits that are all set. -/
theorem bitsOf_replicate_true (n : Nat) : bitsOf (List.replicate n true) = 2 ^ n - 1 := by
  induction n with
  | zero => rfl
  | succ n ih =>
    have := Nat.one_le_two_pow (n := n)
    rw [List.replicate_succ, bitsOf, List.foldr_cons, ← bitsOf, ih, b2n, if_pos rfl, Nat.pow_succ]
    omega

/-- After reset every core is available (R34, R68). -/
theorem State.regVal_coreAvail_reset {k : Nat} (hk : k < 9) : reset.regVal (0x1040 + 8 * k) = 2 ^ 64 - 1 := by
  have avail : ((reset.cores.drop (64 * k)).take 64).map (·.avail) = List.replicate 64 true := by
    rw [List.eq_replicate_iff]
    refine ⟨by simp [length_cores_reset]; omega, fun b hb => ?_⟩
    obtain ⟨c, hc, rfl⟩ := List.mem_map.mp hb
    rw [eq_fresh_of_mem_cores_reset (List.mem_of_mem_drop (List.mem_of_mem_take hc))]
    rfl
  rw [regVal_coreAvail _ hk, avail, bitsOf_replicate_true]

end Sys2Proof.Machine

namespace Sys2Proof.Claims

open Sys2Proof.Machine State

/-- The registers of `resetRegs` other than SIZE_CORES do not depend on the cores. -/
theorem resetRegs_but_sizeCores : ∀ x ∈ resetRegs, x.1 ≠ 0x1020 → reset.regVal x.1 = x.2 := by decide

theorem resetRegs_sizeCores : ∀ x ∈ resetRegs, x.1 = 0x1020 → x.2 = 576 + 144 * 2 ^ 16 + 144 * 2 ^ 24 + 144 * 2 ^ 32 + 144 * 2 ^ 40 + 16 * 2 ^ 48 := by
  decide

/-- Settles O60: what the cores hold follows from how a device reset numbers them, the rest is the reset state's own values. -/
theorem resetValues : Obligations.ResetValues := by
  refine ⟨⟨rfl, rfl, fun c hc => ?_⟩, rfl, rfl, rfl, rfl, rfl, rfl, length_cores_reset, numberCores_sorted .., fun d => dieCount_reset,
    fun c hc => ?_, fun k => regVal_coreAvail_reset, by decide, by decide, fun x hx => ?_⟩
  · rw [eq_fresh_of_mem_cores_reset hc]
    exact ⟨rfl, rfl, rfl, rfl, rfl⟩
  · rw [eq_fresh_of_mem_cores_reset hc]
    exact ⟨rfl, rfl, rfl, rfl, rfl⟩
  · by_cases size : x.1 = 0x1020
    · rw [size, regVal_sizeCores_reset, resetRegs_sizeCores x hx size]
    · exact resetRegs_but_sizeCores x hx size

end Sys2Proof.Claims
end

section
/-! PROOFS. Counterexamples to the statements on commands with one reply, on releases and deadlines, and on faults: states that meet their hypotheses. -/

namespace Sys2Proof.Machine

namespace State

/-- When no job context is on its way out, none is by its number either. -/
theorem job_state_ne {s : State} (jobs : ∀ b ∈ s.jobs, b.state ≠ 7) (j : Nat) : (s.job j).state ≠ 7 := by
  rw [job, List.getD_eq_getElem?_getD]
  cases at_j : s.jobs[j]? with
  | none => exact Nat.zero_ne_add_one 6
  | some b => exact jobs b (List.mem_of_getElem? at_j)

/-- With no collective, no reply to a peer, no stalled write and no intent, and no job on its way out, nothing waits to be settled. -/
theorem calm_of_nothing_waits {s : State} (jobs : ∀ b ∈ s.jobs, b.state ≠ 7) (colls : s.colls = []) (peers : s.peerReplies = [])
    (stalled : s.stalled = []) (intents : s.intents = []) : s.Calm :=
  ⟨fun j _ => job_state_ne jobs j, by simp [colls], peers, stalled, by simp [intents]⟩

/-- The completion rings of rings numbered 62 and above may lie anywhere. -/
theorem ringsOk_of_high {s : State} (h : ∀ r ∈ s.rings, r.closing = false ∧ 62 ≤ r.num) : s.RingsOk :=
  fun r hr => ⟨(h r hr).1, fun low => absurd (h r hr).2 (by omega)⟩

end State

/-- Ring `num` in service with nothing written or reserved, its completion ring of 64 entries at an address. -/
def quietRing (num cmpBase : Nat) : Ring :=
  { num, s := 6, c := 6, subBase := 0, cmpBase, subCons := 0, cmpProd := 0, reserved := 0, held := [], lost := false, fresh := false,
    closing := false, seen := [], spoiled := false }

/-! A fault's job event that is written into another core. -/

/-- A running job with policy CONTINUE and one cell, on core 1, whose events go to ring 100. -/
def ring100Job : Job :=
  { Job.empty with state := 4, flags := 8, ring := 100, cells := [⟨1, false, true, false, false, 0, false, Save.empty⟩] }

/-- Two cores, the job on core 1, and the completion ring of ring 100 in the scratch window of core 0 (R211). -/
def eventIntoCore : State :=
  { State.reset with
    cores := [Core.fresh 0 true 0, { Core.fresh 1 false 0 with job := some 0 }]
    jobs := ring100Job :: List.replicate 7 Job.empty
    rings := [quietRing 100 0x100000000] }

theorem eventIntoCore_calm : eventIntoCore.Calm := State.calm_of_nothing_waits (by decide) rfl rfl rfl rfl

theorem eventIntoCore_ringsOk : eventIntoCore.RingsOk := State.ringsOk_of_high (by decide)

/-- As core 1 is fenced, the event that its cell is lost changes the scratch of core 0. -/
theorem eventIntoCore_scratch : ((eventIntoCore.fenceCore 1 0x21 0 true).settled.core? 0).map (·.cpu.scratch.isEmpty) = some false := by
  decide +kernel

/-! A reply whose entry separates a FROZEN block, which completes another command. -/

/-- An outstanding command of a ring, with its phase, deadline and pending blocks. -/
def outstanding (uid ring : Nat) (cmd : Cmd) (phase : OutPhase) (deadline : Option Nat) (blocks : List Nat) : Out :=
  { uid, h := ⟨ring, uid, 0, none, false, none⟩, cmd, phase, effect := 0, deadline, late := false, blocks, okBlocks := 0, badBlocks := 0, records := false,
    from_ := (0, 0, 0) }

/-- A command whose deadline runs, on ring 100, and a PLACE_RISE of block 0. -/
def dueCommand : Out := outstanding 0 100 (.setLinkShares 1 1) .running (some 0) []
def riseCommand : Out := outstanding 1 0 (.placeRise 0 0 1) .running none [0]

/-- Block 0 is FROZEN in the base tier and a copy-on-write takes it to the heart tier, which the rise has joined (R239, R242); the completion ring of
ring 100 lies in the block. -/
def replyIntoFrozen : State :=
  { State.reset with
    rings := [quietRing 100 0x100000000000], outs := [dueCommand, riseCommand]
    blks := [⟨0, .frozen, 1, 0, false, some ⟨0, 1, 0, none⟩, 0⟩]
    moves := [⟨0, 0, 3, 0, 0, true, false, [⟨0, true, 2, .command 1⟩]⟩] }

theorem replyIntoFrozen_calm : replyIntoFrozen.Calm := State.calm_of_nothing_waits (by decide) rfl rfl rfl rfl

theorem replyIntoFrozen_ringsOk : replyIntoFrozen.RingsOk := State.ringsOk_of_high (by decide)

/-- The reply of the command whose deadline passes ends the rise too. -/
theorem replyIntoFrozen_outs : (replyIntoFrozen.commandDeadline 0).settled.outs = [] := by decide +kernel

/-! A cancellation that lets a collective start, which fails at once. -/

/-- A collective of engine 0 with an empty descriptor, whose input cannot be read. -/
def emptyColl (uid : Nat) (phase : CollPhase) : Coll :=
  { uid, ring := 63, tag := uid, job := 0, raw := [], engines := [0], phase, axes := [], work := [], got := [], slots := [], status := 0, reason := 0, result := 0,
    notifyFailed := false, aborted := false }

/-- A COLL_RUN that is armed and one that runs. -/
def armedColl : Out := outstanding 8 63 (.collRun 0) .armed none []
def releasedColl : Out := outstanding 7 63 (.collRun 0) .running none []

/-- Engine 0 runs 8 collectives, the armed command's among them; the other command's is released and waits for the engine (R313). -/
def engineFull : State :=
  { State.reset with
    fw := { State.reset.fw with stage := 4 }, rings := [quietRing 63 0], outs := [releasedColl, armedColl], nextUid := 9
    colls := emptyColl 7 .released :: (List.range 8).map fun i => emptyColl (8 + i) .running }

theorem engineFull_calm : engineFull.Calm := by
  exact ⟨fun j _ => State.job_state_ne (by decide) j, by decide, rfl, rfl, List.forall_mem_nil _⟩

theorem engineFull_ringsOk : engineFull.RingsOk := State.ringsOk_of_high (by decide)

/-- A command of ring 63. -/
def cancelHdr : Hdr := ⟨63, 9, 0, none, false, none⟩

theorem engineFull_ready : Ready engineFull cancelHdr (quietRing 63 0) 1 :=
  ⟨rfl, engineFull_calm, rfl, nofun, rfl, rfl, rfl, List.forall_mem_nil _, by decide, by decide, by decide, rfl, .inl rfl⟩

/-- With the armed command cancelled the engine takes the collective that waits, which cannot read its input: its command ends too. -/
theorem engineFull_outs : (engineFull.command cancelHdr (.releaseCancel 63 8)).settled.outs = [] := by decide

end Sys2Proof.Machine

namespace Sys2Proof.Claims

open Sys2Proof.Machine State

/-- Refutes O56: the job event of a fault of core 1 is written into core 0, in whose scratch window the completion ring lies. The ring's number is 100, which no
ring of the device has (R344); the hypotheses allow it, and `RingsOk` leaves open where the completion rings of rings numbered 62 and above lie. -/
theorem not_faultsAreContained : ¬ Obligations.FaultsAreContained := by
  intro h
  obtain ⟨-, cores, -⟩ := h eventIntoCore eventIntoCore_calm (List.forall_mem_nil _) eventIntoCore_ringsOk
  obtain ⟨-, -, ofJob, -⟩ := cores 1 _ rfl nofun (by decide) rfl rfl rfl rfl rfl
  obtain ⟨t, -, -, ran, -, -, -, -, -, -, -, -, -, -, -, others⟩ :=
    ofJob 0 _ rfl (by decide) (by decide) rfl rfl rfl rfl rfl (by decide)
  have run : (eventIntoCore.fenceCore 1 0x21 0 true).settled = t := Host.Outcome.next.inj ran
  have scratch := eventIntoCore_scratch
  rw [run, others 0 (by decide)] at scratch
  exact absurd scratch (by decide)

/-- Refutes O54: the reply of a command whose deadline passes goes to a completion ring in a FROZEN block; the write separates the block from its image in the
heart tier (R242), which satisfies the rise of another command and ends it too (R239). The ring is numbered 100, as in the refutation of O56. -/
theorem not_ticksReleasesDeadlinesFences : ¬ Obligations.TicksReleasesDeadlinesFences := by
  intro h
  obtain ⟨-, -, -, -, deadline, -⟩ := h replyIntoFrozen replyIntoFrozen_calm replyIntoFrozen_ringsOk rfl
  obtain ⟨t, ran, -, outs, -⟩ := deadline 0 dueCommand 0 rfl rfl (by decide) (by decide)
  have run : (replyIntoFrozen.commandDeadline 0).settled = t := Host.Outcome.next.inj ran
  rw [← run, replyIntoFrozen_outs] at outs
  exact absurd outs (by decide)

/-- Refutes O47: nothing in the hypotheses says that the collective of an armed COLL_RUN has not begun. Where it runs, to cancel the command frees its engine for
a released collective (R313), whose command ends at once, since its input cannot be read (R322). -/
theorem not_deviceCommandsReply : ¬ Obligations.DeviceCommandsReply := by
  intro h
  obtain ⟨-, -, -, -, -, -, -, -, -, -, -, cancel⟩ := h engineFull cancelHdr (quietRing 63 0) engineFull_ready
  obtain ⟨t, ran, outs, -⟩ := cancel armedColl rfl (by decide) engineFull_ringsOk
  have run : (engineFull.command cancelHdr (.releaseCancel 63 8)).settled = t := Host.Outcome.next.inj ran
  rw [← run, engineFull_outs] at outs
  exact absurd outs (by decide)

end Sys2Proof.Claims
end

section
/-! PROOFS. The evaluation of a wait at the end of a core's cycle, and the waiter that resumes (R194, R195, R274). -/

namespace Sys2Proof.Machine

namespace Cpu

/-- Nothing on the core falls due as its clock runs on: no result, row or semaphore update is on its way, no SWAP waits only for its cycle, and no pass
is in the array. -/
structure Still (c : Cpu) : Prop where
  pend : c.pend = []
  moves : c.moves = []
  sups : c.sups = []
  swap : swapAt c.array = none
  run : c.array.run = []

/-- A pass queue of passes only has no SWAP that takes effect ahead of them (R83). -/
theorem firstSwap_entries {q : List QItem} (h : ∀ i ∈ q, ∃ e, i = QItem.entry e) : firstSwap q = none := by
  cases q with
  | nil => rfl
  | cons i q =>
    obtain ⟨e, rfl⟩ := h i List.mem_cons_self
    rfl

/-- No SWAP stands in an empty pass queue (R83). -/
theorem swapAt_nil {a : ArrayState} (h : a.q = []) : swapAt a = none := by simp [swapAt, firstSwap, h]

/-- No SWAP takes effect with an MWAIT before passes only (R83). -/
theorem swapAt_wait_entries {a : ArrayState} {k target : Nat} {consume : Bool} {q : List QItem} (hq : a.q = .wait k target consume :: q)
    (h : ∀ i ∈ q, ∃ e, i = QItem.entry e) : swapAt a = none := by
  simp [swapAt, firstSwap, hq, firstSwap_entries h]

namespace Still

/-- With nothing to fall due the clock just moves on. -/
theorem settle {c : Cpu} (h : c.Still) (sd x : Nat) : settle sd x c = clockAt x c := by
  have swap : runSwap x (clockAt x c) = clockAt x c := by simp [runSwap, h.swap]
  have land : landDue sd x (clockAt x c) = clockAt x c := by
    simp only [landDue, clockAt_pend, clockAt_moves, h.pend, h.moves, List.filter_nil, List.map_nil, List.append_nil, landAll]
    rw [← h.pend, ← h.moves, ← clockAt_pend x c, ← clockAt_moves x c]
  rw [Cpu.settle, swap, fillTo_nil _ _ _ (by simpa using h.run), land, landSems_nil _ _ _ (by simpa using h.sups)]

theorem testWait {c : Cpu} (h : c.Still) (x : Nat × Nat) (e : Nat) : (testWait x c e).Still := by
  unfold Cpu.testWait
  split
  · exact ⟨h.pend, h.moves, h.sups, h.swap, h.run⟩
  · exact h

/-- The evaluation of waits puts nothing on its way (R195). -/
theorem endCycle {c : Cpu} (h : c.Still) : (endCycle c).Still := by
  have all : (c.evals.foldl testWaits c).Still :=
    List.foldlRecOn _ _ h fun d hd x _ => List.foldlRecOn _ _ hd fun _ hu e _ => hu.testWait x e
  exact ⟨all.pend, all.moves, all.sups, all.swap, all.run⟩

/-- The clock runs at once to a later cycle, at the end of the one under way (R64, R195). -/
theorem runTo {c : Cpu} (h : c.Still) (sd x : Nat) : runTo sd x c = clockAt x (if c.cycle < x then Cpu.endCycle c else c) := by
  have due : c.nextDue = none := by simp [nextDue, h.pend, h.sups, h.swap, minOf]
  have move : moveTo sd x c = clockAt x (if c.cycle < x then Cpu.endCycle c else c) := by
    unfold moveTo
    split
    · exact h.endCycle.settle sd x
    · exact h.settle sd x
  rw [Cpu.runTo, advance, due]
  exact move

end Still

/-- The clock does not go back. -/
theorem clockAt_max (x : Nat) (c : Cpu) : clockAt (max c.cycle x) c = clockAt x c := by
  unfold clockAt
  by_cases lt : c.cycle < x
  · rw [Nat.max_eq_right (Nat.le_of_lt lt)]
  · rw [Nat.max_eq_left (Nat.le_of_not_lt lt), if_neg lt, if_neg (Nat.lt_irrefl _)]

/-- While the sequencer waits, or the vector unit in a VWAIT, no bundle issues (R39, R146). -/
theorem issues_of_wait {c : Cpu} {w : WaitRec} (hw : w ∈ c.waits) (he : w.eng ∈ [engSeq, engVec]) : c.issues = false := by
  have waits : c.waiting = true := by
    rw [waiting, List.any_eq_true.mpr ⟨w, hw, by simpa using he⟩, Bool.or_true]
  simp [issues, waits]

/-! The evaluation of one wait. -/

/-- Engines without an open wait are passed over (R195). -/
theorem foldl_testWait_of_not_open (x : Nat × Nat) (l : List Nat) (c : Cpu) (h : ∀ w ∈ c.waits, w.wakeAt = none → w.eng ∉ l) :
    l.foldl (testWait x) c = c := by
  induction l with
  | nil => rfl
  | cons e l ih =>
    have passed : testWait x c e = c := by
      have none_open : (c.waits.find? fun w => w.eng == e && w.sem == x.1 && w.wakeAt.isNone && w.target ≤ c.sem x.1) = none := by
        rw [List.find?_eq_none]
        intro w hw found
        simp only [Bool.and_eq_true, beq_iff_eq, Option.isNone_iff_eq_none] at found
        obtain ⟨⟨⟨at_e, -⟩, armed⟩, -⟩ := found
        exact h w hw armed (at_e ▸ List.mem_cons_self)
      rw [testWait, none_open]
    rw [List.foldl_cons, passed]
    exact ih fun w hw armed later => h w hw armed (List.mem_cons_of_mem e later)

/-- The sole wait `w` is satisfied: it wakes in cycle `x`, and takes its target from the count if it consumes (R195). -/
def meet (w : WaitRec) (x : Nat) (c : Cpu) : Cpu :=
  { c with
    waits := [{ w with wakeAt := some x }]
    sems := if w.consume then c.sems.set w.sem (BitVec.ofNat 16 (c.sem w.sem - w.target)) else c.sems }

section
variable {c : Cpu} {w : WaitRec} (made : Nat) (sole : c.waits = [w]) (armed : w.wakeAt = none) (hit : w.target ≤ c.sem w.sem)
include sole armed hit

/-- The count has reached the target of the sole wait: it is satisfied (R195). -/
theorem testWait_sole : testWait (w.sem, made) c w.eng = meet w (c.wakeOf made w) c := by
  have found : (c.waits.find? fun v => v.eng == w.eng && v.sem == w.sem && v.wakeAt.isNone && v.target ≤ c.sem w.sem) = some w := by
    simp [sole, armed, hit]
  rw [testWait, found]
  simp [meet, sole]

/-- At the end of the cycle the engines are evaluated in turn, and the sole wait is satisfied at its engine's turn (R195). -/
theorem endCycle_sole (he : w.eng ∈ [engArr, engVec, engSeq, engFsd]) (hv : c.evals = [(w.sem, made)]) :
    endCycle c = { meet w (c.wakeOf made w) c with evals := [] } := by
  obtain ⟨before, after, engines, fresh⟩ := List.eq_append_cons_of_mem he
  have turns : testWaits c (w.sem, made) = meet w (c.wakeOf made w) c := by
    rw [testWaits, engines, List.foldl_append, List.foldl_cons, foldl_testWait_of_not_open _ before c (by simp [sole, fresh]),
      testWait_sole made sole armed hit, foldl_testWait_of_not_open _ after _ (by simp [meet])]
  rw [endCycle, hv, List.foldl_cons, List.foldl_nil, turns]

end

/-- Once the satisfied wait is gone, what is left of it is the count that the evaluation gave (R194, R195). -/
theorem clockAt_meet (w : WaitRec) (x y : Nat) (c : Cpu) :
    { clockAt y { meet w x c with evals := [] } with waits := [] } = { clockAt y c with waits := [], evals := [], sems := (meet w x c).sems } := by
  by_cases lt : c.cycle < y <;> simp [clockAt, meet, lt]

/-! The engine that resumes. -/

section
variable {c : Cpu} {reg e k target : Nat} {consume : Bool} {x : Nat} (sd : Nat) (still : c.Still) (hv : c.evals = [])
  (sole : c.waits = [⟨reg, e, k, target, consume, some x⟩])
include still hv sole

/-- The clock runs to the wake of the sole wait, which is then gone (R194). -/
theorem dropWait_runTo_sole : dropWait e (runTo sd (max c.cycle x) c) = { clockAt x c with waits := [] } := by
  have waits : (clockAt x c).waits = c.waits := by unfold clockAt; split <;> rfl
  rw [still.runTo, endCycle_nil c hv, ite_self, clockAt_max, dropWait, waits, sole]
  simp

/-- The sequencer, the vector unit or the fetch/store engine resumes in its cycle (R194). -/
theorem wake_sole (he : e ≠ engArr) : wake sd e c = { clockAt x c with waits := [] } := by
  rw [← dropWait_runTo_sole sd still hv sole]
  simp [wake, sole, he]

end

/-- The array resumes past its MWAIT, with passes only behind it (R135, R194). -/
theorem wake_array {c : Cpu} {reg k target : Nat} {consume : Bool} {x : Nat} {q : List QItem} (sd : Nat) (still : c.Still) (hv : c.evals = [])
    (sole : c.waits = [⟨reg, engArr, k, target, consume, some x⟩]) (hq : c.array.q = .wait k target consume :: q)
    (entries : ∀ i ∈ q, ∃ e, i = QItem.entry e) :
    wake sd engArr c = { clockAt x c with waits := [], array := { c.array with q, readyAt := max c.array.readyAt x } } := by
  have passed : wake sd engArr c =
      armWait (clockAt x c).cycle { clockAt x c with waits := [], array := { c.array with q, readyAt := max c.array.readyAt x } } := by
    have dropped := dropWait_runTo_sole sd still hv sole
    simp [wake, sole, dropped, dropMwait, hq]
  rw [passed]
  cases q with
  | nil => exact armWait_nil _ _ rfl
  | cons i q =>
    obtain ⟨e, rfl⟩ := entries i List.mem_cons_self
    simp [armWait]

end Cpu

namespace State

theorem onlyCore_runCore (s : State) (n : Nat) (f : Cpu → Cpu) : OnlyCore n s (s.runCore n f) := by
  unfold runCore
  split
  · exact onlyCore_modCore ..
  · exact ⟨rfl, rfl, fun _ _ => rfl⟩

/-- The core on which a function is run has what the function gives, its counters counted (R423). -/
theorem core?_runCore {s : State} {n : Nat} {c : Core} (h : s.core? n = some c) (f : Cpu → Cpu) :
    ∃ d, (s.runCore n f).core? n = some d ∧ CountsOnly { c with cpu := f c.cpu } d := by
  refine ⟨c.runCpu s.free (s.skipLevel (dieOf c.phys)) f, ?_, countsOnly_runCpu _ _ f c⟩
  simp [runCore, h, core?_modCore]

theorem onlyCore_evaluate (s : State) (n e : Nat) : OnlyCore n s (s.evaluate n e) := onlyCore_modCore ..

/-- Where no bundle issues in the cycle any more, the waits of every engine are evaluated (R195). -/
theorem core?_evaluate_of_not_issues {s : State} {n e : Nat} {c : Core} (h : s.core? n = some c) (hs : c.cpu.st ≠ .fenced) (hi : c.cpu.issues = false) :
    (s.evaluate n e).core? n = some { c with cpu := c.cpu.endCycle } := by
  simp [evaluate, core?_modCore, h, hs, hi]

/-- Where no wait is due for evaluation, nothing changes (R195). -/
theorem core?_evaluate_of_evals_nil {s : State} {n e : Nat} {c : Core} (h : s.core? n = some c) (hv : c.cpu.evals = []) :
    (s.evaluate n e).core? n = some c := by
  simp [evaluate, core?_modCore, h, Cpu.endCycle_nil _ hv, hv]

/-- What the wake of the fetch/store engine does to its items: the first of `q` that is queued may start (R274). -/
def wakeHead (q : List Item) (c : Core) : Core :=
  { c with dma := { c.dma with q := c.dma.q.map fun i =>
      if (q.find? fun x => x.phase == .queued).map (·.uid) == some i.uid then { i with phase := .woken } else i } }

/-- A queued head item may start, and no other (R274). -/
theorem wakeHead_cons {c : Core} {i : Item} {rest : List Item} (items : c.dma.q = i :: rest) (queued : i.phase = .queued)
    (others : ∀ j ∈ rest, j.uid ≠ i.uid) : (wakeHead (i :: rest) c).dma.q = { i with phase := .woken } :: rest := by
  have kept : rest.map (fun j => if i.uid = j.uid then { j with phase := .woken } else j) = rest :=
    (List.map_congr_left fun j hj => if_neg (others j hj).symm).trans rest.map_id
  simp [wakeHead, items, queued, kept]

/-- A satisfied waiter resumes: its core runs to its wake, and nothing else in the device changes (R194). -/
theorem exec_waiterWake {s : State} {n e : Nat} {c : Core} (h : (s.evaluate n e).core? n = some c) (hs : c.cpu.st ≠ .fenced)
    (hw : c.cpu.waits.any (fun w => w.eng == e && w.wakeAt.isSome) = true) :
    ∃ t d, exec (.waiterWake n e) s = .next (if e = engFsd then t.modCore n (wakeHead c.dma.q) else t) ∧ t.core? n = some d ∧
      CountsOnly { c with cpu := Cpu.wake s.free e c.cpu } d ∧ OnlyCore n s t := by
  have seeded : (s.evaluate n e).seeded.core? n = some c := h
  obtain ⟨d, at_n, counts⟩ := core?_runCore seeded (Cpu.wake s.free e)
  have go : (c.cpu.waits.any (fun w => w.eng == e && w.wakeAt.isSome) && c.cpu.st != .fenced) = true := by simp [hw, hs]
  refine ⟨_, d, ?_, at_n, counts, ((onlyCore_evaluate s n e).trans (onlyCore_seeded n _)).trans (onlyCore_runCore _ n _)⟩
  show Host.Outcome.next (s.wakeWaiter n e) = _
  rw [wakeWaiter]
  simp only [h, go, if_true]
  rfl

end State

/-- The wake of an engine other than the fetch/store engine changes the core's execution state only (R194). -/
theorem IssuesTo.waiterWake {s : State} {n e : Nat} {c : Core} {v : Cpu} (h : (s.evaluate n e).core? n = some { c with cpu := v })
    (hs : v.st ≠ .fenced) (hw : v.waits.any (fun w => w.eng == e && w.wakeAt.isSome) = true) (he : e ≠ engFsd) :
    IssuesTo s n c (.waiterWake n e) (Cpu.wake s.free e v) := by
  obtain ⟨t, d, ran, at_n, counts, only⟩ := State.exec_waiterWake h hs hw
  rw [if_neg he] at ran
  exact ⟨t, d, ran, at_n, counts, only⟩

/-- A bundle of no-ops on a core with nothing to fall due: the program counter moves on, and the cycle ends (R40, R101, R195). -/
theorem IssuesTo.nop {s : State} {n : Nat} {c : Core} (hI : Issuing s n c) (still : c.cpu.Still) :
    IssuesTo s n c (.nop n) (Cpu.clockAt (c.cpu.cycle + 1) (Cpu.nextPc none c.cpu).endCycle) := by
  have past : (Cpu.nextPc none c.cpu).Still := ⟨still.pend, still.moves, still.sups, still.swap, still.run⟩
  have clock : Cpu.runTo s.free (c.cpu.cycle + 1) (Cpu.nextPc none c.cpu) = Cpu.clockAt (c.cpu.cycle + 1) (Cpu.nextPc none c.cpu).endCycle := by
    rw [past.runTo, if_pos (by exact Nat.lt_succ_self c.cpu.cycle)]
  exact .of_bundle s n c _ Bundle.nop _ hI rfl nofun nofun
    (by simp [Cpu.bundleFault, Bundle.nop, Cpu.movFault, Cpu.vecFault, Cpu.matFault, Cpu.ctlFault]) clock

end Sys2Proof.Machine

namespace Sys2Proof.Claims

open Sys2Proof.Machine State

/-- Settles O8: the evaluation at the end of the cycle satisfies the sole wait, and the clock runs on to its wake with nothing else falling due. -/
theorem waitersWake : Obligations.WaitersWake := by
  intro s n c reg k target consume hc hs hp hm hu hr _
  have still (h : Cpu.swapAt c.cpu.array = none) : c.cpu.Still := ⟨hp, hm, hu, h, hr⟩
  have seqOrVec : ∀ e ∈ [engSeq, engVec], e ∈ [engArr, engVec, engSeq, engFsd] ∧ e ≠ engArr ∧ e ≠ engFsd := by decide
  have arrOrFsd : ∀ e ∈ [engArr, engFsd], e ∈ [engArr, engVec, engSeq, engFsd] := by decide
  refine ⟨fun made e hq hv sole hit => ⟨fun he => ?_, fun he hI => ?_⟩, fun x hv => ⟨fun e he hq sole => ?_, fun q sole hq entries => ?_,
    fun i rest hq sole items queued others => ?_⟩⟩
  · obtain ⟨engine, notArr, notFsd⟩ := seqOrVec e he
    have evaluated := core?_evaluate_of_not_issues (e := e) hc hs (Cpu.issues_of_wait (by rw [sole]; exact List.mem_singleton_self _) he)
    have ended := (still (Cpu.swapAt_nil hq)).endCycle
    rw [Cpu.endCycle_sole made sole rfl hit engine hv] at evaluated ended
    have woken := IssuesTo.waiterWake evaluated hs (by simp [Cpu.meet]) notFsd
    rwa [Cpu.wake_sole s.free ended rfl rfl notArr, Cpu.clockAt_meet] at woken
  · have issued := IssuesTo.nop hI (still (Cpu.swapAt_nil hq))
    rwa [Cpu.endCycle_sole (c := Cpu.nextPc none c.cpu) made sole rfl hit (arrOrFsd e he) hv,
      Cpu.clockAt_later _ _ (by exact Nat.lt_succ_self c.cpu.cycle)] at issued
  · obtain ⟨-, notArr, notFsd⟩ := seqOrVec e he
    have woken := IssuesTo.waiterWake (core?_evaluate_of_evals_nil (e := e) hc hv) hs (by simp [sole]) notFsd
    rwa [Cpu.wake_sole s.free (still (Cpu.swapAt_nil hq)) hv sole notArr] at woken
  · have woken := IssuesTo.waiterWake (core?_evaluate_of_evals_nil (e := engArr) hc hv) hs (by simp [sole]) (by decide)
    rwa [Cpu.wake_array s.free (still (Cpu.swapAt_wait_entries hq entries)) hv sole hq entries] at woken
  · obtain ⟨t, d, ran, at_n, ⟨counts, rfl⟩, only⟩ :=
      exec_waiterWake (core?_evaluate_of_evals_nil (e := engFsd) hc hv) hs (by simp [sole])
    rw [Cpu.wake_sole s.free (still (Cpu.swapAt_nil hq)) hv sole (by decide)] at at_n
    exact ⟨_, _, ran, by rw [if_pos rfl, core?_modCore, if_pos rfl, at_n, Option.map_some], rfl, by rw [items]; exact wakeHead_cons items queued others,
      only.trans (onlyCore_modCore _ _ _)⟩

end Sys2Proof.Claims
end

section
/-! PROOFS. Requests of a function below the root port (R211, R485). -/

namespace Sys2Proof.Machine
namespace State

/-- The firmware heart window lies above the host region and below the tiered range (R207). -/
theorem region_heart {s : State} {a : Nat} (h : s.region a = .heart) : 0x0C0000000000 ≤ a ∧ a < 0x0C8000000000 := by
  refine Decidable.byContradiction fun out => ?_
  simp only [region, ← Bool.decide_and, out, decide_false, Bool.false_and, Bool.false_eq_true, if_false] at h
  repeat' split at h
  all_goals cases h

/-- Bytes of the firmware heart window within one block that is not poisoned can be read (R208, R229). -/
theorem fwRead_heart {s : State} {a n : Nat} (hr : s.region a = .heart) (hp : s.poison.contains (a / 65536) = false) (hn : a % 65536 + n ≤ 65536) :
    s.fwRead a n = some (s.mem.read a n) := by
  have sound : s.poisoned a = false := by
    rw [poisoned, hr]
    exact hp
  simp [fwRead, blockStarts_of_block hn, hr, sound]

/-- A load of the firmware heart window gives its bytes (R208, R220). -/
theorem memAccess_load_heart {s : State} {a n : Nat} {bs : List Byte} (d : List Byte) (hr : s.region a = .heart) (h : s.fwRead a n = some bs) :
    OnlyDevCounts (s.send (.value bs)) (s.memAccess false a n d 0) := by
  simp only [memAccess, h, hr]
  exact (onlyDevCounts_countRange ..).send _

section
variable {s : State} {a : Nat} (up : s.pcie.up = true)
include up

/-- A store into the scratch windows has no effect (R211). -/
theorem pcieInbound_store_window (own : Bool) (n : Nat) (d : List Byte) (err : Nat) (h1 : 0x100000000 ≤ a) (h2 : a < 0x200000000) :
    s.pcieInbound own true a n d err = s := by
  simp [pcieInbound, up, h1, h2]

/-- The host region is memory to every function (R485). -/
theorem pcieInbound_host (own store : Bool) (n : Nat) (d : List Byte) (err : Nat) (h : s.region a = .host) :
    s.pcieInbound own store a n d err = s.memAccess store a n d err := by
  have above := (region_host h).1
  have beyond : ¬ a < 0x200000000 := by omega
  simp [pcieInbound, up, h, beyond]

/-- The firmware heart window can be read by a function that the firmware owns (R485). -/
theorem pcieInbound_load_heart (n : Nat) (d : List Byte) (err : Nat) (h : s.region a = .heart) :
    s.pcieInbound true false a n d err = s.memAccess false a n d err := by
  have above := (region_heart h).1
  have beyond : ¬ a < 0x200000000 := by omega
  simp [pcieInbound, up, h, beyond]

/-- The firmware heart window, where it can be read, takes a store of a function that the firmware owns; the completion rings that the store meets are
spoiled (R13, R485). -/
theorem pcieInbound_store_heart {n : Nat} {bs : List Byte} (d : List Byte) (err : Nat) (h : s.region a = .heart) (readable : s.fwRead a n = some bs) :
    OnlyDevCounts ({ s with mem := s.mem.write a (bytesAt d 0 n) }.spoilRings a n) (s.pcieInbound true true a n d err) := by
  have above := (region_heart h).1
  have beyond : ¬ a < 0x200000000 := by omega
  have stored : s.pcieInbound true true a n d err =
      ({ s with mem := s.mem.write a (bytesAt d 0 n) }.countRange a n true 0 []).spoilRings a n := by
    simp [pcieInbound, up, h, beyond, readable]
  rw [stored]
  exact (onlyDevCounts_countRange ..).spoilRings ..

/-- Beyond the host region and the scratch windows a function that the firmware does not own reaches nothing, and no function reaches what nothing
backs (R485). -/
theorem pcieInbound_unsupported {own : Bool} (store : Bool) (n : Nat) (d : List Byte) (err : Nat) (out : a < 0x100000000 ∨ 0x200000000 ≤ a)
    (h : s.region a ≠ .host) (closed : own = false ∨ s.region a = .bad) : s.pcieInbound own store a n d err = s.send .accessFault := by
  have windows : ¬ (0x100000000 ≤ a ∧ a < 0x200000000) := by omega
  simp only [pcieInbound, up, windows, Bool.not_true, Bool.false_eq_true, Bool.and_eq_true, decide_eq_true_eq, if_false]
  cases hr : s.region a with
  | host => exact absurd hr h
  | tiered b =>
    obtain rfl : own = false := closed.resolve_right (by simp [hr])
    rfl
  | heart =>
    obtain rfl : own = false := closed.resolve_right (by simp [hr])
    rfl
  | reg _ => rfl
  | window _ _ => rfl
  | pcie _ => rfl
  | bad => rfl

end

end State

/-- PCIE_INBOUND is the request of a function below the root port. -/
theorem exec_pcieInbound (own store : Bool) (a n : Nat) (d : List Byte) (err : Nat) (s : State) :
    exec (.pcieInbound own store a n d err) s = .next (s.pcieInbound own store a n d err) := rfl

/-- PCIE_INBOUND ends in the state that the request leaves, which is given up to the device's counters. -/
theorem exec_pcieInbound_upto_counts {own store : Bool} {a n : Nat} {d : List Byte} {err : Nat} {s u : State}
    (h : State.OnlyDevCounts u (s.pcieInbound own store a n d err)) :
    ∃ t, exec (.pcieInbound own store a n d err) s = .next t ∧ t = { u with dev := { u.dev with cnt := t.dev.cnt } } :=
  ⟨_, exec_pcieInbound .., h.eq⟩

end Sys2Proof.Machine

namespace Sys2Proof.Claims

open Sys2Proof.Machine State

/-- Settles O33, by cases on the region in which the address lies. -/
theorem pcieInboundAccesses : Obligations.PcieInboundAccesses := by
  intro s own a n d up counted meets rings reach
  refine ⟨fun hn block reached hp => ?reached, fun out notHost closed store err => ?refused, fun lo hi err => ?window⟩
  case reached =>
    rcases reached with hr | ⟨rfl, hr⟩
    · have plain : s.Plain a n := plain_of_block hr hp block
      refine ⟨exec_pcieInbound_upto_counts ?_, exec_pcieInbound_upto_counts ?_⟩
      · rw [pcieInbound_host up own false n d 0 hr]
        exact memAccess_load_host d hr (fwRead_plain plain hn)
      · rw [pcieInbound_host up own true n d 0 hr]
        exact memAccess_store (fwWrite_plain (by rwa [length_bytesAt]) (List.ne_nil_of_length_pos (by rwa [length_bytesAt])))
    · have readable := fwRead_heart hr hp block
      refine ⟨exec_pcieInbound_upto_counts ?_, exec_pcieInbound_upto_counts (pcieInbound_store_heart up d 0 hr readable)⟩
      rw [pcieInbound_load_heart up n d 0 hr]
      exact memAccess_load_heart d hr readable
  case refused =>
    rw [exec_pcieInbound, pcieInbound_unsupported up store n d err out notHost closed]
    rfl
  case window => rw [exec_pcieInbound, pcieInbound_store_window up own n d err lo hi]

end Sys2Proof.Claims
end

section
/-! PROOFS. Counterexamples to the statements on the requests of a fetch/store engine and on memory errors: states that meet their hypotheses. -/

namespace Sys2Proof.Machine

/-! Two requests in one slot. -/

/-- A descriptor of one row of 1 byte from the scratch of the issuing cell into tiles at the start of the host region (R265, R266, R272). -/
def intoTiles : Item :=
  { uid := 0, raw := [4095 * 2 ^ 32, 0x080000000000, 1, 0, 0, 0, 1 + 1 * 2 ^ 4, 0].flatMap (leBytes 8), deadline := none, phase := .running, members := []
    todo := [], total := 1, land := 1, base := 0, failAt := none, cut := none, timedOut := false, ownerLost := false }

/-- A request of that descriptor in slot 0, to be served at its source; `part` bits of its byte belong to the row. -/
def slotZero (part : Option Nat) : Req := ⟨0, 0, ⟨0, 1, some 0, 0, part⟩, .read, false, [], 0, 0, false⟩

/-- A running core whose scratch begins with the byte 0xFF, with two requests in slot 0: of the second only 4 bits belong to the row. -/
def sharedSlotCore : Core :=
  { Core.fresh 0 false 0 with
    job := some 0
    cpu := { Cpu.reset false with st := .running, scratch := [(0, 0xFF)] }
    dma := { Dma.reset with q := [intoTiles], reqs := [slotZero none, slotZero (some 4)] } }

/-- A device with that core, on which the one cell of job 0 lies. -/
def sharedSlot : State :=
  { State.reset with
    cores := [sharedSlotCore]
    jobs := { Job.empty with state := 4, cells := [⟨0, false, true, false, false, 0, false, Save.empty⟩] } :: List.replicate 7 Job.empty }

theorem sharedSlot_calm : sharedSlot.Calm := State.calm_of_nothing_waits (by decide) rfl rfl rfl rfl

theorem sharedSlotCore_served : Served sharedSlotCore := by
  unfold Served
  decide

/-- Each request in the slot takes the byte as its own piece masks it (R272). -/
theorem sharedSlot_data :
    ((sharedSlot.serveSlot 0 0 0).settled.core? 0).map (fun c => c.dma.reqs.map (·.data)) = some [[0xFF], [0x0F]] := by decide +kernel

/-! Two records of one block. -/

/-- Block 0 in the base tier, and a second record of it, poisoned and on stack 0 of the heart tier. -/
def twoRecords : List Blk := [⟨0, .base, 1, 0, false, none, 0⟩, ⟨0, .heart, 0, 0, true, none, 0⟩]

/-- A device with these records, nothing in memory, and stack 0 in use. -/
def recordedTwice : State :=
  { State.reset with blks := twoRecords, memReg := { MemReg.reset with hbms := [⟨true, false, 0, false⟩] } }

theorem recordedTwice_calm : recordedTwice.Calm := State.calm_of_nothing_waits (by decide) rfl rfl rfl rfl

namespace State

/-- Stack `k` is broken (R392). -/
def breakStack (s : State) (k : Nat) : State :=
  { s with memReg := { s.memReg with hbms := modAt s.memReg.hbms k fun h => { h with broken := true } } }

/-- A stack in use that fails with no sound block on it, no move under way and nothing in memory is broken, and nothing else changes (R392). -/
theorem stackFails_of_empty {s : State} {k : Nat} (inUse : (s.memReg.hbms.getD k ⟨false, false, 0, false⟩).inUse = true) (sound : s.onStack k = [])
    (moves : s.moves = []) (mem : s.mem = []) : s.stackFails k = s.breakStack k := by
  have none_on : (s.breakStack k).onStack k = [] := sound
  have no_moves : (s.breakStack k).moves = [] := moves
  have no_bytes (a : Nat) : ((s.breakStack k).mem.slice a 65536).isEmpty = true := by
    rw [show (s.breakStack k).mem = [] from mem]
    rfl
  have none_listed (l : List Nat) :
      (l.filter fun a => !((s.breakStack k).mem.slice a 65536).isEmpty && !(s.breakStack k).poisoned a) = [] :=
    List.filter_eq_nil_iff.mpr fun a _ => by
      simp only [no_bytes, Bool.not_true, Bool.false_and, Bool.false_eq_true, not_false_eq_true]
  rw [stackFails, if_pos inUse, ← breakStack]
  simp only [none_on, no_moves, none_listed, List.filter_nil, List.foldl_nil]

end State

/-- Block 0 is found by its first record, which the failure of stack 0 leaves as it was. -/
theorem recordedTwice_blk : ((recordedTwice.stackFails 0).settled.blk? 0).map (·.poisoned) = some false := by
  rw [State.stackFails_of_empty rfl rfl rfl rfl]
  decide +kernel

end Sys2Proof.Machine

namespace Sys2Proof.Claims

open Sys2Proof.Machine State

/-- Refutes O36: where two requests hold one slot, the data that comes from a cell's scratch is masked for each by its own piece (R272), and the statement
masks it for both by the piece of the first. Its hypotheses do not say that each request has a slot of its own (R52). -/
theorem not_requestsOfTheFetchStoreEngine : ¬ Obligations.RequestsOfTheFetchStoreEngine := by
  intro h
  obtain ⟨-, fromCell, -⟩ := h sharedSlot 0 0 sharedSlotCore (slotZero none) intoTiles rfl sharedSlot_calm sharedSlotCore_served (.inl rfl) rfl rfl
  obtain ⟨t, ran, ⟨e, at_0, counts, same⟩, -⟩ :=
    fromCell 0 0 4095 0 0 sharedSlotCore 0x080000000000 0 rfl rfl (by decide) rfl (by decide) rfl (by decide) (by decide)
  have run : (sharedSlot.serveSlot 0 0 0).settled = t := Host.Outcome.next.inj ran
  have stated : e.dma.reqs.map (·.data) = [[0xFF], [0xFF]] := by
    rw [same]
    rfl
  have data := sharedSlot_data
  rw [run, at_0, Option.map_some, stated] at data
  exact absurd data (by decide)

/-- Refutes O40: a block is found by its first record. Where a second record of it lies, poisoned, on the stack that fails, no block is left to poison, and
the first record stays as it was. The hypotheses do not say that the directory has one record for each block (R238). -/
theorem not_memoryErrorsFound : ¬ Obligations.MemoryErrorsFound := by
  intro h
  obtain ⟨-, -, -, fails⟩ := h recordedTwice recordedTwice_calm
  obtain ⟨t, ran, -, poisons⟩ := fails 0 ⟨true, false, 0, false⟩ rfl rfl rfl rfl
  obtain ⟨y, found, bad⟩ := poisons ⟨0, .heart, 0, 0, true, none, 0⟩ (by decide) (by decide) nofun rfl rfl
  have run : (recordedTwice.stackFails 0).settled = t := Host.Outcome.next.inj ran
  have first := recordedTwice_blk
  rw [run, found, Option.map_some, bad] at first
  exact absurd first (by decide)

end Sys2Proof.Claims
end
